-- ==== Sys2Proof/Word.lean ====
section
/-! DEFINITION. The one data width of the block: a byte (spec/00_scope.md R9). -/

namespace Sys2Proof

/-- A byte: 8 bits, bit 0 the least significant, value unsigned 0 to 255 (R9, R52). -/
abbrev Byte := BitVec 8

end Sys2Proof
end

