-- ==== Sys2Proof/Config.lean ====
section
/-! DEFINITION. The parameters of spec/00_scope.md R6: what the block's design fixes, what it leaves
OPEN (opaque constants), and the free value Draw8. -/

namespace Sys2Proof.Config

/-! ### Parameters with a value (R6) -/

/-- `FRAME_BYTES` (R6, R70). -/
abbrev frameBytes : Nat := 2

/-- `P_RESET_TRACK` (decision D23). DESIGN CHOICE (log 5), unsafe: 93 I11 lets a model take it open. -/
abbrev resetTrack : BitVec 2 := 0

/-- `P_RESET_EOT_LATCH` (decision D23). DESIGN CHOICE (log 5), unsafe. -/
abbrev resetEotLatch : Bool := false

/-- `P_TRUE`, the response byte of a true Boolean (decision D8). DESIGN CHOICE (log 25), unsafe. -/
abbrev pTrue : Byte := 0x01

/-- `P_FALSE`, the response byte of a false Boolean ("0 = no-op"). -/
abbrev pFalse : Byte := 0x00

/-- `P_STATUS_HIGH`, status bits 7:4 (decision D10). DESIGN CHOICE (log 25), unsafe. -/
abbrev statusHigh : BitVec 4 := 0

/-- `P_RESERVED_DATA`, the result byte of a reserved opcode (decision D6). DESIGN CHOICE (log 25), unsafe. -/
abbrev reservedData : Byte := 0x00

/-- SEEK's "arbitrary fixed acknowledgment byte (0)" (R112). -/
abbrev seekAck : Byte := 0x00

/-- RESET_EOT's result byte ("returns 0", R118). -/
abbrev resetEotAck : Byte := 0x00

/-- `P_CLEAR_DATA`, the data byte of the reference loops' tape check (R6, R80). -/
abbrev clearData : Byte := 0x01

/-- `P_HAS_REC_ENABLE`: the record-enable input exists; without it the sense is tied to 1 (D17). Log 27. -/
abbrev hasRecEnable : Bool := true

/-- `P_POLL_INTERVAL` in milliseconds: timing only, no rule depends on it (R6, R195). -/
abbrev pollIntervalMs : Nat := 1

/-- `P_SETTLE_DELAY` in milliseconds ("about 1 s"): timing only, no rule depends on it (R6, R195). -/
abbrev settleDelayMs : Nat := 1000

/-! ### The opcode numbering (R73), "a closed, wire-stable contract" -/

abbrev opGetStatus : Byte := 0x00
abbrev opSetTrack : Byte := 0x01
abbrev opSeek : Byte := 0x02
abbrev opStartMotor : Byte := 0x03
abbrev opStopMotor : Byte := 0x04
abbrev opWrite : Byte := 0x05
abbrev opStartWrite : Byte := 0x06
abbrev opStopWrite : Byte := 0x07
abbrev opData : Byte := 0x08
abbrev opDataEot : Byte := 0x09
abbrev opResetEot : Byte := 0x0A

/-! ### Line rates (R6, R198) -/

/-- The six supported line rates. -/
inductive LineRate where
  | b4800 | b9600 | b19200 | b38400 | b57600 | b115200
deriving DecidableEq, Repr, Inhabited

/-- The rate as the command line writes it. -/
def LineRate.value : LineRate → Nat
  | .b4800 => 4800
  | .b9600 => 9600
  | .b19200 => 19200
  | .b38400 => 38400
  | .b57600 => 57600
  | .b115200 => 115200

/-- The line rate a command-line number names; `none` is "an unsupported baud rate" (R198). -/
def lineRateOfNat (n : Nat) : Option LineRate :=
  if n = 4800 then some .b4800
  else if n = 9600 then some .b9600
  else if n = 19200 then some .b19200
  else if n = 38400 then some .b38400
  else if n = 57600 then some .b57600
  else if n = 115200 then some .b115200
  else none

/-! ### OPEN parameters (R6): no rule assumes a value, so none has a body (log 11) -/

/-- `P_BAUD`, the rate the device's side of the link runs at. -/
opaque baud : LineRate

/-- Seeds of the three OPEN exit codes; the codes below range over every triple R6 allows. -/
opaque exitFailSeed : Nat
opaque exitSyntaxSeed : Nat
opaque exitNoTapeSeed : Nat

/-- The `n`-th natural number other than `a`. -/
def avoiding (a n : Nat) : Nat := if n < a then n else n + 1

/-- `P_EXIT_FAIL`: non-zero. -/
def exitFail : Nat := exitFailSeed + 1

/-- `P_EXIT_SYNTAX`: distinct from 0 and from `P_EXIT_FAIL`. -/
def exitSyntax : Nat := avoiding exitFail (exitSyntaxSeed + 1)

/-- `P_EXIT_NOTAPE`: distinct from 0, `P_EXIT_FAIL` and `P_EXIT_SYNTAX`. -/
def exitNoTape : Nat :=
  avoiding (max exitFail exitSyntax) (avoiding (min exitFail exitSyntax) (exitNoTapeSeed + 1))

/-- `Draw8()`: the `n`-th free byte the environment chooses, "under no law" (R11, R151, 93 I10). Log 10. -/
opaque freeByte : Nat → Byte

/-! ### Free values of a line whose ends run at different rates (R230, D31; log 31) -/

/-- The byte the line noise puts in transit. -/
opaque noiseByte : Nat → Byte

/-- Whether that byte is inserted (R230 c) or replaces the oldest in transit (R230 b). -/
opaque noiseInserts : Nat → Bool

end Sys2Proof.Config
end

