-- ==== Sys2Proof/Syntax.lean ====
section
/-! DEFINITION. The command set: one constructor per row of spec/opcode_table.json (R73, R82). -/

namespace Sys2Proof

/-- A request frame, decoded. Every row carries its data byte, also where R74 calls it unused, so
that no bit of a frame is dropped; a reserved row that leaves opcode bits free carries its opcode. -/
inductive Instr where
  /-- GET_STATUS (R110). -/
  | getStatus (data : Byte)
  /-- SET_TRACK (R111). -/
  | setTrack (data : Byte)
  /-- SEEK (R112). -/
  | seek (data : Byte)
  /-- START_MOTOR (R113). -/
  | startMotor (data : Byte)
  /-- STOP_MOTOR (R114). -/
  | stopMotor (data : Byte)
  /-- WRITE (R115). -/
  | write (data : Byte)
  /-- START_WRITE (R116). -/
  | startWrite (data : Byte)
  /-- STOP_WRITE (R117). -/
  | stopWrite (data : Byte)
  /-- DATA (R150, R151). -/
  | data (data : Byte)
  /-- DATA_EOT as a request: reserved (R119). -/
  | dataEot (data : Byte)
  /-- RESET_EOT (R118). -/
  | resetEot (data : Byte)
  /-- Reserved opcode 0x0B (R119). -/
  | reserved0B (data : Byte)
  /-- Reserved opcodes 0x0C to 0x0F (R119). -/
  | reserved0C0F (op data : Byte)
  /-- Reserved opcodes 0x10 to 0x1F (R119). -/
  | reserved101F (op data : Byte)
  /-- Reserved opcodes 0x20 to 0x3F (R119). -/
  | reserved203F (op data : Byte)
  /-- Reserved opcodes 0x40 to 0x7F (R119). -/
  | reserved407F (op data : Byte)
  /-- Reserved opcodes 0x80 to 0xFF (R119). -/
  | reserved80FF (op data : Byte)
deriving DecidableEq, Repr

end Sys2Proof
end

