-- ==== Sys2Proof/WellFormed.lean ====
section
/-! DEFINITION. Which terms of `Instr` are request frames: a reserved row's opcode lies in the row's
range (R82). Every data byte is legal in every opcode (R77), so nothing else is checked. -/

namespace Sys2Proof

/-- The opcode byte lies between two bounds, both included. -/
def opcodeIn (lo hi op : Byte) : Bool := decide (lo ≤ op) && decide (op ≤ hi)

/-- Well-formedness of an instruction (R77, R82). -/
def Instr.wf : Instr → Bool
  | .getStatus _ => true
  | .setTrack _ => true
  | .seek _ => true
  | .startMotor _ => true
  | .stopMotor _ => true
  | .write _ => true
  | .startWrite _ => true
  | .stopWrite _ => true
  | .data _ => true
  | .dataEot _ => true
  | .resetEot _ => true
  | .reserved0B _ => true
  | .reserved0C0F op _ => opcodeIn 0x0C 0x0F op
  | .reserved101F op _ => opcodeIn 0x10 0x1F op
  | .reserved203F op _ => opcodeIn 0x20 0x3F op
  | .reserved407F op _ => opcodeIn 0x40 0x7F op
  | .reserved80FF op _ => opcodeIn 0x80 0xFF op

end Sys2Proof
end

