-- ==== Sys2Proof/Decode.lean ====
section
/-! DEFINITION. The Command Frame Codec (R90, R91), the decoder of request frames over the table of
R82, and the encoder written from the same table. -/

namespace Sys2Proof

/-! ### The codec shared by both halves (R90 to R92) -/

/-- `encode(op, data) = [op, data]`, the opcode first, no validation (R90, R51). -/
def codecEncode (op data : Byte) : List Byte := [op, data]

/-- `decode([b0, b1]) = (b0, b1)`; another length is a programming error, `none` here (R91). -/
def codecDecode : List Byte → Option (Byte × Byte)
  | [b0, b1] => some (b0, b1)
  | _ => none

/-! ### The opcode table (R73, R82) -/

/-- The rows of the table, by name. -/
inductive Row where
  | getStatus | setTrack | seek | startMotor | stopMotor | write | startWrite | stopWrite
  | data | dataEot | resetEot
  | reserved0B | reserved0C0F | reserved101F | reserved203F | reserved407F | reserved80FF
deriving DecidableEq, Repr

/-- One line of R82's table. Every mask has a zero low byte there (the data byte never selects a
row, R78), so the high bytes of match and mask are kept. -/
structure TableRow where
  row : Row
  pattern : Byte
  mask : Byte
deriving DecidableEq, Repr

/-- R82's table, in its order. -/
def opcodeTable : List TableRow :=
  [ ⟨.getStatus, 0x00, 0xFF⟩, ⟨.setTrack, 0x01, 0xFF⟩, ⟨.seek, 0x02, 0xFF⟩,
    ⟨.startMotor, 0x03, 0xFF⟩, ⟨.stopMotor, 0x04, 0xFF⟩, ⟨.write, 0x05, 0xFF⟩,
    ⟨.startWrite, 0x06, 0xFF⟩, ⟨.stopWrite, 0x07, 0xFF⟩, ⟨.data, 0x08, 0xFF⟩,
    ⟨.dataEot, 0x09, 0xFF⟩, ⟨.resetEot, 0x0A, 0xFF⟩, ⟨.reserved0B, 0x0B, 0xFF⟩,
    ⟨.reserved0C0F, 0x0C, 0xFC⟩, ⟨.reserved101F, 0x10, 0xF0⟩, ⟨.reserved203F, 0x20, 0xE0⟩,
    ⟨.reserved407F, 0x40, 0xC0⟩, ⟨.reserved80FF, 0x80, 0x80⟩ ]

/-- An opcode byte matches a row when its masked bits equal the row's pattern (R73, R82). -/
def TableRow.fits (r : TableRow) (op : Byte) : Bool := decide (op &&& r.mask = r.pattern)

/-- The row an opcode byte selects. -/
def rowOf (op : Byte) : Option Row := (opcodeTable.find? (fun r => r.fits op)).map (fun r => r.row)

/-- The instruction a row makes of a frame's two bytes. -/
def instrOfRow (r : Row) (op data : Byte) : Instr :=
  match r with
  | .getStatus => .getStatus data
  | .setTrack => .setTrack data
  | .seek => .seek data
  | .startMotor => .startMotor data
  | .stopMotor => .stopMotor data
  | .write => .write data
  | .startWrite => .startWrite data
  | .stopWrite => .stopWrite data
  | .data => .data data
  | .dataEot => .dataEot data
  | .resetEot => .resetEot data
  | .reserved0B => .reserved0B data
  | .reserved0C0F => .reserved0C0F op data
  | .reserved101F => .reserved101F op data
  | .reserved203F => .reserved203F op data
  | .reserved407F => .reserved407F op data
  | .reserved80FF => .reserved80FF op data

/-- Why bytes are no request frame. -/
inductive DecodeError where
  /-- The input is not exactly two bytes long (R91, 93 I5). -/
  | wrongLength (length : Nat)
  /-- No row of the table fits the opcode; R78 says this does not happen (see
  `Laws.rowOf_isSome`). -/
  | noRow (op : Byte)
deriving DecidableEq, Repr

/-- The decoder of request frames: total on any bytes, rejecting by name (R78, R91). -/
def decode (bytes : List Byte) : Except DecodeError Instr :=
  match codecDecode bytes with
  | some (op, data) =>
    match rowOf op with
    | some r => .ok (instrOfRow r op data)
    | none => .error (.noRow op)
  | none => .error (.wrongLength bytes.length)

/-! ### The encoder -/

/-- The opcode byte of an instruction (R73). -/
def Instr.opcode : Instr → Byte
  | .getStatus _ => Config.opGetStatus
  | .setTrack _ => Config.opSetTrack
  | .seek _ => Config.opSeek
  | .startMotor _ => Config.opStartMotor
  | .stopMotor _ => Config.opStopMotor
  | .write _ => Config.opWrite
  | .startWrite _ => Config.opStartWrite
  | .stopWrite _ => Config.opStopWrite
  | .data _ => Config.opData
  | .dataEot _ => Config.opDataEot
  | .resetEot _ => Config.opResetEot
  | .reserved0B _ => 0x0B
  | .reserved0C0F op _ => op
  | .reserved101F op _ => op
  | .reserved203F op _ => op
  | .reserved407F op _ => op
  | .reserved80FF op _ => op

/-- The data byte of an instruction (R70). -/
def Instr.dataByte : Instr → Byte
  | .getStatus d => d
  | .setTrack d => d
  | .seek d => d
  | .startMotor d => d
  | .stopMotor d => d
  | .write d => d
  | .startWrite d => d
  | .stopWrite d => d
  | .data d => d
  | .dataEot d => d
  | .resetEot d => d
  | .reserved0B d => d
  | .reserved0C0F _ d => d
  | .reserved101F _ d => d
  | .reserved203F _ d => d
  | .reserved407F _ d => d
  | .reserved80FF _ d => d

/-- The request frame of an instruction, opcode byte first (R51, R70). -/
def encode (i : Instr) : List Byte := codecEncode i.opcode i.dataByte

/-! ### Frames written as one number -/

/-- The two bytes of a frame given as the number `F = op * 256 + data` (R9): the opcode is bits
15:8 and goes first on the wire (R51). Bits of `w` from `nbits` up are taken as 0. DEDUCED (log 13). -/
def frameOfWord (nbits w : Nat) : Byte × Byte :=
  let f := w % 2 ^ nbits
  (BitVec.ofNat 8 (f / 256), BitVec.ofNat 8 f)

/-- What the decoder reads from a frame numbered as the opcode table numbers it; a frame is two
bytes, so more than 16 bits is no frame (R72). -/
def decodeTableWord (nbits w : Nat) : Option Instr :=
  if nbits ≤ 16 then
    match decode (codecEncode (frameOfWord nbits w).1 (frameOfWord nbits w).2) with
    | .ok i => some i
    | .error _ => none
  else none

end Sys2Proof
end

