-- ==== Sys2Proof/Machine/State.lean ====
section
/-! DEFINITION. The state of the block: the device half, the wire, the host half, and the script that
says which agent or which environment event comes next; and the free schedule that follows the script. -/

namespace Sys2Proof.Machine

/-! ### Device (spec/10_state.md) -/

/-- The transport register file `T` (R20). -/
structure TransportState where
  /-- The selected track (R21). -/
  track : BitVec 2
  /-- The motor is commanded on (R22). -/
  motorOn : Bool
  /-- The fast-forward solenoid is on (R23). -/
  ffOn : Bool
  /-- Write mode (R24). -/
  writeEnabled : Bool
  /-- The sticky end-of-tape latch (R25). -/
  eotLatched : Bool
deriving DecidableEq, Repr

/-- The sense inputs (R26, R27): levels the environment drives, not registers. -/
structure SenseState where
  tapePresent : Bool
  recEnable : Bool
deriving DecidableEq, Repr

/-- Which byte of a request frame the next received byte is (R31). -/
inductive Phase where
  | opcode | data
deriving DecidableEq, Repr

/-- What the Responder waits for (R31). -/
inductive Mode where
  /-- Ready to receive. -/
  | idle
  /-- A SEEK is positioning (R112). -/
  | seeking
  /-- A DATA poll waits for a byte or the latch (R151). -/
  | polling
deriving DecidableEq, Repr

/-- The Responder's hidden state `D` (R31). -/
structure ResponderState where
  phase : Phase
  /-- The opcode held between the two bytes of a frame; meaningless in phase `opcode`. -/
  op : Byte
  mode : Mode
deriving DecidableEq, Repr

/-! ### Wire (R7, R8, R230) -/

/-- One byte channel: the bytes in transit, oldest first, and whether it is closed. -/
structure Channel where
  queue : List Byte
  closed : Bool
deriving DecidableEq, Repr

/-- The two channels of the wire. -/
inductive Side where
  | hostToDevice | deviceToHost
deriving DecidableEq, Repr

/-- The rate the host's end of the link was opened at. The device's end runs at `P_BAUD`. -/
inductive HostRate where
  /-- Opened "at `P_BAUD`", the device's own rate (R261). -/
  | baud
  /-- Opened at a rate that was chosen, on the command line or by another host program (R197). -/
  | chosen (r : Config.LineRate)
deriving DecidableEq, Repr

/-- Both ends run at the same rate (R6, R262 item 1). -/
def HostRate.same : HostRate → Bool
  | .baud => true
  | .chosen r => decide (r = Config.baud)

/-- The line between the two ends. -/
structure LineState where
  /-- The rate of the host's end (R6 `P_BAUD`, R261). -/
  rate : HostRate
  /-- How many free values the noise of a mismatched line has drawn; the model's own (log 31). -/
  noise : Nat
deriving DecidableEq, Repr

/-! ### Host: errors and results (R221, R201) -/

/-- "which argument" an `InvalidArgument` names (R198, R221). -/
inductive BadArgument where
  /-- An unsupported baud rate. -/
  | baudRate (n : Nat)
  /-- A command-line track outside 1 to 4. -/
  | track (n : Nat)
  /-- Read and write requested together. -/
  | bothModes
deriving DecidableEq, Repr

/-- The four errors of the host (R221). -/
inductive HostError where
  | linkIO
  | echoMismatch (expected received : Byte)
  | noTape
  | invalidArgument (which : BadArgument)
deriving DecidableEq, Repr

/-- What a `send` gives its caller (R170). -/
inductive SendOutcome where
  | returned (rop rdata : Byte)
  | raised (e : HostError)
deriving DecidableEq, Repr

/-- The normal ends of a reference loop (R191, R192). -/
inductive LoopResult where
  | normal | cancelled | endOfTape | exhausted
deriving DecidableEq, Repr

/-- How a loop ends: with a result, or raising an error (R191 to R193). -/
inductive LoopExit where
  | ended (r : LoopResult)
  | raised (e : HostError)
deriving DecidableEq, Repr

/-- The result or error of a top-level host program (R201 a). -/
inductive RunResult where
  /-- A `send` called directly returned. -/
  | sendReturned (rop rdata : Byte)
  /-- A loop ended normally. -/
  | loopEnded (r : LoopResult)
  /-- The command-line tool ended with no loop requested. -/
  | toolDone
  /-- The command line was "a syntax error" (R199). -/
  | syntaxError
  /-- An error reached the top level. -/
  | raised (e : HostError)
deriving DecidableEq, Repr

/-- One entry of the trace of frames on the host's side (R201 b). -/
inductive FrameRecord where
  /-- Both bytes of a request have been transmitted. -/
  | request (op data : Byte)
  /-- Both bytes of a response have been received. -/
  | response (rop rdata : Byte)
deriving DecidableEq, Repr

/-- The status report of the command-line tool (R197). -/
structure StatusReport where
  /-- The track as the command line counts it, 1 to 4. -/
  track : Nat
  tapePresent : Bool
  endOfTape : Bool
deriving DecidableEq, Repr

/-! ### Host: programs (spec/44_stream_controller.md) -/

/-- The command line, parsed (R197); parsing it is out of scope (R5 c). -/
structure Args where
  baudRate : Nat
  track : Option Nat
  seek : Bool
  status : Bool
  read : Bool
  write : Bool
  echo : Bool
deriving DecidableEq, Repr

/-- The reference host programs. -/
inductive Program where
  /-- `readLoop(sink)` (R191). -/
  | readLoop
  /-- `writeLoop(source, echoSink or none)` (R192). -/
  | writeLoop (source : List Byte) (echo : Bool)
  /-- `main(args)` with its standard input (R197). -/
  | commandLine (args : Args) (stdin : List Byte)
  /-- `main` with a command line that does not parse (R199). Parsing is out of scope (R5 c), so
  nothing is kept of it. -/
  | unparsed
deriving DecidableEq, Repr

/-- The control point of the running top-level program. A point that names a `send` stays while
that `send` is in progress. -/
inductive Task where
  /-- No top-level program runs. -/
  | idle
  /-- Any other host program's call of `send` (R170). -/
  | call (op data : Byte)
  /-- `open link at P_BAUD` (R197). -/
  | openLink (rate : Config.LineRate) (args : Args)
  /-- `if track k requested` (R197). -/
  | track (args : Args)
  /-- `if seek requested` (R197). -/
  | seek (args : Args)
  /-- `if status requested` (R197). -/
  | status (args : Args)
  /-- `if read requested`, `if write requested` (R197). -/
  | modes (args : Args)
  /-- The read loop's tape check (R191). -/
  | readCheck
  /-- The read loop's START_MOTOR. -/
  | readStart
  /-- The top of a read-loop iteration (R194). -/
  | readTop
  /-- The read loop's DATA poll. -/
  | readPoll
  /-- The read loop's `wait(P_POLL_INTERVAL)`. -/
  | readWait
  /-- The read loop's cleanup STOP_MOTOR, and how the loop is ending (R193). -/
  | readCleanup (e : LoopExit)
  /-- The write loop's tape check (R192). -/
  | writeCheck
  /-- The write loop's START_WRITE. -/
  | writeStart
  /-- The write loop's `wait(P_SETTLE_DELAY)`. -/
  | writeSettle
  /-- The top of a write-loop iteration (R194). -/
  | writeTop
  /-- The write loop's WRITE of one byte. -/
  | writeByte (b : Byte)
  /-- The write loop's cleanup STOP_WRITE, and how the loop is ending (R193). -/
  | writeCleanup (e : LoopExit)
deriving DecidableEq, Repr

/-- How far `send` has got (R172): the transfer in progress. -/
inductive Transfer where
  /-- No `send` is in progress. -/
  | none
  /-- About to transmit both bytes of the request. -/
  | sendOpcode (b0 b1 : Byte)
  /-- About to transmit the second byte. -/
  | sendData (b1 : Byte)
  /-- Waiting for the first response byte. -/
  | recvOpcode
  /-- Waiting for the second response byte; the first is held. -/
  | recvData (r0 : Byte)
deriving DecidableEq, Repr

/-- Where a host program that writes the channel itself, past the Link Session, stands in its
frame (R264). -/
inductive DirectFrame where
  /-- Between frames. -/
  | none
  /-- The opcode byte has been written. -/
  | opcodeSent
  /-- A whole request has been written; neither response byte has been read. -/
  | awaitOpcode
  /-- The first response byte has been read. -/
  | awaitData
deriving DecidableEq, Repr

/-- The host half: the Requester's state `H` (R33, R34) and the running host program. -/
structure HostState where
  /-- `H.outstanding` (R33). -/
  outstanding : Bool
  /-- `H.reqOp`, the opcode of the request in flight (R33). -/
  reqOp : Byte
  /-- `H.cancel` (R34). -/
  cancel : Bool
  /-- The transfer `send` is in the middle of (R172). -/
  transfer : Transfer
  /-- The control point of the running program. -/
  task : Task
  /-- The write loop's input, not yet read (R192). -/
  source : List Byte
  /-- An echo sink is configured (R196). -/
  echo : Bool
  /-- Bytes delivered to the read loop's sink (R201 c). -/
  sink : List Byte
  /-- Bytes copied to the write loop's echo sink (R196). -/
  echoSink : List Byte
  /-- The command-line tool's status report (R197). -/
  report : Option StatusReport
  /-- Frames sent and received, oldest first (R201 b). -/
  trace : List FrameRecord
  /-- The result of the last top-level program (R201 a). -/
  result : Option RunResult
  /-- A host program's own frame on the channel (R264). -/
  direct : DirectFrame
  /-- Bytes such a host program has read. -/
  directIn : List Byte
deriving DecidableEq, Repr

/-! ### Turns: who steps next (R7, R58) -/

/-- What may happen to bytes in transit on one channel (R230 a to c); positions count from the
oldest byte. -/
inductive LinkFault where
  | drop (c : Side) (pos : Nat)
  | replace (c : Side) (pos : Nat) (b : Byte)
  | insert (c : Side) (pos : Nat) (b : Byte)
  /-- One channel closes (R230 d). -/
  | close (c : Side)
  /-- Both channels close (R230 d). -/
  | closeBoth
deriving DecidableEq, Repr

/-- One atomic step of the environment (R224 to R230, R260, R261), or an act of a host program
that is not a reference program. -/
inductive Event where
  /-- The end-of-tape sensor fires (R225). -/
  | endOfTape
  /-- The tape-present level changes (R226). -/
  | tapePresent (level : Bool)
  /-- The record-enable level changes (R226). -/
  | recEnable (level : Bool)
  /-- The positioning of SEEK has finished (R227). -/
  | seekDone
  /-- The read channel presents a byte (R228). -/
  | readByte (b : Byte)
  /-- The host is cancelled (R229). -/
  | cancel
  /-- A link fault (R230). -/
  | linkFault (f : LinkFault)
  /-- Power-on or reboot of the device (R260). -/
  | deviceReset
  /-- The host opens the channel and creates the Link Session (R261). -/
  | hostConnect (rate : HostRate)
  /-- The host process starts (R261), at any time: DESIGN CHOICE (log 35, log 36). -/
  | processStart
  /-- A host program calls `send(op, data)` (R170). -/
  | callSend (op data : Byte)
  /-- A host program writes one byte on the channel itself (R264). -/
  | directWrite (b : Byte)
  /-- Such a host program reads one byte. -/
  | directRead
  /-- A reference program starts (spec/44_stream_controller.md). -/
  | launch (p : Program)
deriving DecidableEq, Repr

/-- Whose step comes next. -/
inductive Turn where
  | responder
  | host
  | event (e : Event)
deriving DecidableEq, Repr, Inhabited

end Sys2Proof.Machine

/-- Whose turn it is once the script has been taken: a free value, so that every infinite
interleaving, the unfair ones too, is a run (R58, R271; log 4). -/
opaque Sys2Proof.Config.freeTurn : Nat → Sys2Proof.Machine.Turn

namespace Sys2Proof.Machine

/-! ### The whole state -/

/-- The state of the block. -/
structure State where
  /-- `T`, the transport register file (R20). -/
  t : TransportState
  /-- The sense inputs (R26, R27). -/
  sense : SenseState
  /-- `D`, the Responder's hidden state (R31). -/
  d : ResponderState
  /-- `host_tx` to `link_rx` (R8). -/
  hostToDevice : Channel
  /-- `link_tx` to `host_rx` (R8). -/
  deviceToHost : Channel
  /-- The line the two channels share (R6, R262). -/
  line : LineState
  /-- Bytes emitted on `write_data`, oldest first (R8, R115). -/
  writeData : List Byte
  /-- `H` and the host program (R33, R34). -/
  h : HostState
  /-- How many free bytes have been drawn (`Draw8`, R11); the model's own (log 10). -/
  draws : Nat
  /-- The turns still to be taken; the model's own (log 1). -/
  script : List Turn
  /-- How many turns have been drawn from `freeTurn`; the model's own (log 4). -/
  turns : Nat
deriving DecidableEq, Repr

/-! ### How a step can stop -/

/-- Faults. The block has none: "The device side raises no exception and has no error state" (R220),
and a host error is a value the host program goes on with (R222), kept in `HostState.result`. So this
type has no constructor: nothing raises one, which is neither safe nor unsafe. -/
inductive Fault
deriving DecidableEq, Repr

/-- Refusals: the run has no meaning. -/
inductive Refusal where
  /-- Raised by an arm of `exec` that has no meaning yet; none is left. Safe. -/
  | notModelled (mnemonic : String)
  /-- Raised by `beginSend`: a `send` is called while one is outstanding, "a programming error"
  which a model refuses (R171, 93 I7). Safe. -/
  | sendWhileOutstanding
  /-- Raised by `directWrite`, `sendOpcodeStep` and `sendDataStep`, and only where the byte would go out on
  an open channel: a byte of a new request before both bytes of the previous response have come in, to
  which the spec gives no meaning (R264: "gets no meaning from this spec"; 93 I6: `refuse`). Safe. -/
  | writeWhileResponseOutstanding
  /-- Raised by `receiveByte` if the decoder refused a frame (R91, 93 I5). No step reaches it, since
  a frame has two bytes and decoding is total on them (R78). Safe. -/
  | undecodableFrame
deriving DecidableEq, Repr

/-! ### Reset (R37, R260, R261) -/

/-- `T` after device reset (R37). -/
def TransportState.reset : TransportState :=
  { track := Config.resetTrack, motorOn := false, ffOn := false, writeEnabled := false,
    eotLatched := Config.resetEotLatch }

/-- `D` after device reset (R37). `D.op` is unspecified there: DESIGN CHOICE 0x00 (log 6), unsafe. -/
def ResponderState.reset : ResponderState := { phase := .opcode, op := 0x00, mode := .idle }

/-- The sense inputs at reset: R37 gives none. DESIGN CHOICE both low (log 7), unsafe. -/
def SenseState.reset : SenseState := { tapePresent := false, recEnable := false }

/-- A channel with nothing in transit, open. DESIGN CHOICE at reset (log 9), unsafe. -/
def Channel.reset : Channel := { queue := [], closed := false }

/-- The line at reset: opened at `P_BAUD` (R261); nothing drawn, DESIGN CHOICE (log 31). -/
def LineState.reset : LineState := { rate := .baud, noise := 0 }

/-- The host after process start and connect (R37, R261). `reqOp` is unspecified there: DESIGN CHOICE
0x00 (log 8), unsafe; the program's fields are empty. After a process start in a run no connect is asked
for before a program sends: DESIGN CHOICE (log 36). -/
def HostState.reset : HostState :=
  { outstanding := false, reqOp := 0x00, cancel := false, transfer := .none, task := .idle,
    source := [], echo := false, sink := [], echoSink := [], report := none,
    trace := [], result := none, direct := .none, directIn := [] }

/-- The block right after device reset and host connect (R37, R260, R261). -/
def State.reset : State :=
  { t := TransportState.reset, sense := SenseState.reset, d := ResponderState.reset,
    hostToDevice := Channel.reset, deviceToHost := Channel.reset, line := LineState.reset,
    writeData := [], h := HostState.reset, draws := 0, script := [], turns := 0 }

end Sys2Proof.Machine
end

