-- ==== Sys2Proof/Machine/Flags.lean ====
section
/-! DEFINITION. The computations of R120. The block has no arithmetic flags; its only flags are the
register-file fields (R12), so this file holds the status byte, the Boolean result byte and the
conditions the commands test. -/

namespace Sys2Proof.Machine

/-- `bool8(b)` (R9). -/
def bool8 (b : Bool) : Byte := if b then Config.pTrue else Config.pFalse

/-- `zext_8` of the 2-bit track (R75, R120). -/
def trackByte (track : BitVec 2) : Byte := track.setWidth 8

/-- `Status(T) = {0b0000, Sense.tapePresent, T.eotLatched, T.track[1:0]}` (R30). -/
def statusByte (t : TransportState) (sense : SenseState) : Byte :=
  Config.statusHigh ++ BitVec.ofBool sense.tapePresent ++ BitVec.ofBool t.eotLatched ++ t.track

/-- The tape is stationary: "motor and FF both off" (R14). -/
def TransportState.stationary (t : TransportState) : Bool := !t.motorOn && !t.ffOn

/-- `Sense.recEnable` as START_WRITE reads it: tied to 1 where the platform has no such sensing (R27). -/
def recordEnabled (sense : SenseState) : Bool := !Config.hasRecEnable || sense.recEnable

/-- The precondition of START_WRITE (R116). -/
def canStartWrite (t : TransportState) (sense : SenseState) : Bool :=
  !t.writeEnabled && sense.tapePresent && recordEnabled sense

/-- Bit 3 of a status byte, as the host reads it (R30, R191). -/
def statusTapePresent (s : Byte) : Bool := s.getLsbD 3

/-- Bit 2 of a status byte (R30, R197). -/
def statusEndOfTape (s : Byte) : Bool := s.getLsbD 2

/-- Bits 1:0 of a status byte (R30, R197). -/
def statusTrack (s : Byte) : BitVec 2 := s.extractLsb' 0 2

end Sys2Proof.Machine
end

