-- ==== Sys2Proof/Machine/Operands.lean ====
section
/-! DEFINITION. The forms in which a request's data byte is read (R74). The form `unused` reads
nothing and so has no definition: its instructions take the byte and drop it. -/

namespace Sys2Proof.Machine

/-- Form `flag`: zero or non-zero (GET_STATUS). -/
def operandFlag (data : Byte) : Bool := decide (data ≠ 0x00)

/-- Form `track`: accepted only if `data <= 3`, and then its two low bits (SET_TRACK). -/
def operandTrack (data : Byte) : Option (BitVec 2) :=
  if data ≤ 3 then some (data.extractLsb' 0 2) else none

/-- Form `byte`: all 8 bits (WRITE). -/
def operandByte (data : Byte) : Byte := data

end Sys2Proof.Machine
end

