-- ==== Sys2Proof/Machine/Ops.lean ====
section
/-! DEFINITION. The shared operations on the state: the primitives of R11, the responses of R95, the
completion steps of SEEK and DATA, the actuator outputs, device reset.

There is no operation for taking an exception or returning from one: the device raises none, saves
no state and changes no mode (R220, R233), and there is no trap return (R234). There is no memory
operation: the block has no addressable memory (R50). -/

namespace Sys2Proof.Machine

/-! ### Channels -/

/-- The channel with one byte appended. -/
def pushByte (b : Byte) (c : Channel) : Channel := { c with queue := c.queue ++ [b] }

/-- `SendByte(b)`: append to `link_tx` (R11). -/
def sendByte (b : Byte) (s : State) : State := { s with deviceToHost := pushByte b s.deviceToHost }

/-- `Respond(rop, rdata)`: both response bytes in one atomic step (R95). -/
def respond (rop rdata : Byte) (s : State) : State := sendByte rdata (sendByte rop s)

/-- `link_rx` holds the bytes `q`. -/
def setLinkRx (q : List Byte) (s : State) : State :=
  { s with hostToDevice := { s.hostToDevice with queue := q } }

/-- `host_rx` holds the bytes `q`. -/
def setHostRx (q : List Byte) (s : State) : State :=
  { s with deviceToHost := { s.deviceToHost with queue := q } }

/-- `RecvByte()`: the next byte of `link_rx`, with the state it is taken from; `none` where no byte
is present, and then the Responder has no step (R11). -/
def recvByte (s : State) : Option (Byte × State) :=
  match s.hostToDevice.queue with
  | [] => none
  | b :: rest => some (b, setLinkRx rest s)

/-- `WriteChannel(b)`: emit `b` on `write_data` (R11, R115). -/
def writeChannel (b : Byte) (s : State) : State := { s with writeData := s.writeData ++ [b] }

/-- `Draw8()`: a free byte, a fresh one each time (R11, R151, log 10). -/
def draw8 (s : State) : Byte × State := (Config.freeByte s.draws, { s with draws := s.draws + 1 })

/-! ### Register writes -/

/-- `T <- t`. -/
def setTransport (t : TransportState) (s : State) : State := { s with t := t }

/-- `D.mode <- m`. -/
def setMode (m : Mode) (s : State) : State := { s with d := { s.d with mode := m } }

/-- `D.op <- b`, `D.phase <- Data`: the first byte of a frame is held (R93). -/
def holdOpcode (b : Byte) (s : State) : State := { s with d := { s.d with op := b, phase := .data } }

/-- `D.phase <- Opcode`: the frame is complete (R93). -/
def completeFrame (s : State) : State := { s with d := { s.d with phase := .opcode } }

/-- The latch cleared (R25, R110, R118). -/
def clearLatch (s : State) : State := setTransport { s.t with eotLatched := false } s

/-! ### Actuator outputs (R32): levels equal to their fields -/

/-- `motor_drive`. -/
def motorDrive (s : State) : Bool := s.t.motorOn

/-- `ff_drive`. -/
def ffDrive (s : State) : Bool := s.t.ffOn

/-- `track_sel[1:0]`. -/
def trackSel (s : State) : BitVec 2 := s.t.track

/-- `write_gate`. -/
def writeGate (s : State) : Bool := s.t.writeEnabled

/-! ### Completion steps -/

/-- `SEEK_done()` (R112), the step itself; `Environment` enables it. -/
def seekDone (s : State) : State :=
  respond Config.opSeek Config.seekAck (setMode .idle (setTransport { s.t with ffOn := false } s))

/-- `DATA_done` with the byte `b` (R151): the opcode is DATA_EOT if the latch is set at this step. -/
def answerPoll (b : Byte) (s : State) : State :=
  respond (if s.t.eotLatched then Config.opDataEot else Config.opData) b (setMode .idle s)

/-- `DATA_done` with no byte presented: the byte is a draw (R151 b). -/
def answerPollByLatch (s : State) : State := answerPoll (draw8 s).1 (draw8 s).2

/-! ### Device reset -/

/-- Device reset (R260): `T` and `D` at their reset values, so that a half-received frame and a SEEK
or DATA in progress are gone; the channels keep their bytes. -/
def resetDevice (s : State) : State := { s with t := TransportState.reset, d := ResponderState.reset }

/-! ### The script -/

/-- A turn has been taken: off the script, or, when it is empty, off the free schedule (log 1, log 4). -/
def dropTurn (s : State) : State :=
  { s with
    script := s.script.tail
    turns := if s.script.isEmpty then s.turns + 1 else s.turns }

/-! ### Placing a frame -/

/-- The state in which the Responder holds `op`, finds `data` next on `link_rx` and has the turn, so
that its next step dispatches the frame `[op][data]` (R93); the host's end runs at the device's rate, so that
the byte arrives as it was sent (R262 item 1). Used by `State.withFetchWord`; log 12. -/
def placeFrame (op data : Byte) (s : State) : State :=
  { s with
    d := { phase := .data, op := op, mode := .idle }
    hostToDevice := { s.hostToDevice with queue := data :: s.hostToDevice.queue }
    line := { s.line with rate := .baud }
    script := .responder :: s.script }

end Sys2Proof.Machine
end

