-- ==== Sys2Proof/Machine/Stream.lean ====
section
/-! DEFINITION. The reference host programs (spec/44_stream_controller.md): the read loop, the write
loop and the command line, as control points. `Task.request` says which frame a control point
sends, `resume` what the program does with the answer, `controlStep` what it does where it sends
nothing, `launch` how it starts. -/

namespace Sys2Proof.Machine

/-- Replace the host's state. -/
def setHost (h : HostState) (s : State) : State := { s with h := h }

/-- Move the program to another control point. -/
def goTo (task : Task) (s : State) : State := setHost { s.h with task := task } s

/-- The top-level program ends with a result or an error (R201). -/
def finish (r : RunResult) (s : State) : State := setHost { s.h with task := .idle, result := some r } s

/-- The result with which a loop's exit leaves the program (R191, R192, R222). -/
def LoopExit.result : LoopExit → RunResult
  | .ended r => .loopEnded r
  | .raised e => .raised e

/-- The command-line track `k` is sent as `k-1` (R81). -/
def internalTrack (k : Nat) : Byte := BitVec.ofNat 8 (k - 1)

/-- The frame a control point sends, `none` where it sends nothing (R191 to R193, R197). -/
def Task.request : Task → Option (Byte × Byte)
  | .idle => none
  | .call op data => some (op, data)
  | .openLink _ _ => none
  | .track args => args.track.map (fun k => (Config.opSetTrack, internalTrack k))
  | .seek args => if args.seek then some (Config.opSeek, 0x00) else none
  | .status args => if args.status then some (Config.opGetStatus, 0x00) else none
  | .modes _ => none
  | .readCheck => some (Config.opGetStatus, Config.clearData)
  | .readStart => some (Config.opStartMotor, 0x00)
  | .readTop => none
  | .readPoll => some (Config.opData, 0x00)
  | .readWait => none
  | .readCleanup _ => some (Config.opStopMotor, 0x00)
  | .writeCheck => some (Config.opGetStatus, Config.clearData)
  | .writeStart => some (Config.opStartWrite, 0x00)
  | .writeSettle => none
  | .writeTop => none
  | .writeByte b => some (Config.opWrite, b)
  | .writeCleanup _ => some (Config.opStopWrite, 0x00)

/-- The end of a cleanup (R193): its own error is discarded if the loop is already failing, and is
the result otherwise. -/
def cleanupResult (pending : LoopExit) : SendOutcome → RunResult
  | .returned _ _ => pending.result
  | .raised e2 =>
    match pending with
    | .raised e1 => .raised e1
    | .ended _ => .raised e2

/-- The read loop delivers a polled byte, on DATA and on DATA_EOT, and ends on DATA_EOT (R191). -/
def deliver (rop b : Byte) (s : State) : State :=
  setHost { s.h with
    sink := s.h.sink ++ [b]
    task := if rop = Config.opDataEot then .readCleanup (.ended .normal) else .readWait } s

/-- The write loop after a WRITE response (R192): the byte is echoed if configured (R196); any
non-zero result is end-of-tape. -/
def written (b e : Byte) (s : State) : State :=
  setHost { s.h with
    echoSink := if s.h.echo then s.h.echoSink ++ [b] else s.h.echoSink
    task := if e ≠ 0x00 then .writeCleanup (.ended .endOfTape) else .writeTop } s

/-- The command line's status report (R197). -/
def statusReport (s : Byte) : StatusReport :=
  { track := (statusTrack s).toNat + 1, tapePresent := statusTapePresent s,
    endOfTape := statusEndOfTape s }

/-- What the program does when its `send` returns or raises (R191 to R193, R197, R222). A control
point that sends nothing is not resumed; it is left as it is. -/
def resume (o : SendOutcome) (s : State) : State :=
  match s.h.task with
  | .idle => s
  | .openLink _ _ => s
  | .modes _ => s
  | .readTop => s
  | .readWait => s
  | .writeSettle => s
  | .writeTop => s
  | .call _ _ =>
    match o with
    | .returned rop rdata => finish (.sendReturned rop rdata) s
    | .raised e => finish (.raised e) s
  | .track args =>
    match o with
    | .returned _ _ => goTo (.seek args) s
    | .raised e => finish (.raised e) s
  | .seek args =>
    match o with
    | .returned _ _ => goTo (.status args) s
    | .raised e => finish (.raised e) s
  | .status args =>
    match o with
    | .returned _ st => setHost { s.h with report := some (statusReport st), task := .modes args } s
    | .raised e => finish (.raised e) s
  | .readCheck =>
    match o with
    | .returned _ st => if statusTapePresent st then goTo .readStart s else finish (.raised .noTape) s
    | .raised e => finish (.raised e) s
  | .readStart =>
    match o with
    | .returned _ _ => goTo .readTop s
    | .raised e => goTo (.readCleanup (.raised e)) s
  | .readPoll =>
    match o with
    | .returned rop b => deliver rop b s
    | .raised e => goTo (.readCleanup (.raised e)) s
  | .readCleanup pending => finish (cleanupResult pending o) s
  | .writeCheck =>
    match o with
    | .returned _ st => if statusTapePresent st then goTo .writeStart s else finish (.raised .noTape) s
    | .raised e => finish (.raised e) s
  | .writeStart =>
    match o with
    | .returned _ _ => goTo .writeSettle s
    | .raised e => goTo (.writeCleanup (.raised e)) s
  | .writeByte b =>
    match o with
    | .returned _ e => written b e s
    | .raised e => goTo (.writeCleanup (.raised e)) s
  | .writeCleanup pending => finish (cleanupResult pending o) s

/-- The host opens the channel at a line rate and creates the Link Session with nothing outstanding
(R261, R197); that this never fails is DESIGN CHOICE (log 38), unsafe. DESIGN CHOICE (log 22), unsafe: bytes in transit stay; `reqOp`, unspecified at connect
(R37), keeps the opcode of the previous request; and a host program's own frame is over, so that a byte
it writes next begins a new one, though its previous response may never have come in. -/
def connect (rate : HostRate) (s : State) : State :=
  { s with
    hostToDevice := { s.hostToDevice with closed := false }
    deviceToHost := { s.deviceToHost with closed := false }
    line := { s.line with rate := rate }
    h := { s.h with outstanding := false, transfer := .none, direct := .none } }

/-- The step of a control point that sends nothing, `none` where the program has no such step. The
waits end in one step, without a duration (R195, log 18). -/
def controlStep (s : State) : Option State :=
  match s.h.task with
  | .idle => none
  | .call _ _ => none
  | .openLink rate args => some (goTo (.track args) (connect (.chosen rate) s))
  | .track args => some (goTo (.seek args) s)
  | .seek args => some (goTo (.status args) s)
  | .status args => some (goTo (.modes args) s)
  | .modes args =>
    if args.read then some (goTo .readCheck s)
    else if args.write then some (goTo .writeCheck s)
    else some (finish .toolDone s)
  | .readCheck => none
  | .readStart => none
  | .readTop =>
    if s.h.cancel then some (goTo (.readCleanup (.ended .cancelled)) s) else some (goTo .readPoll s)
  | .readPoll => none
  | .readWait => some (goTo .readTop s)
  | .readCleanup _ => none
  | .writeCheck => none
  | .writeStart => none
  | .writeSettle => some (goTo .writeTop s)
  | .writeTop =>
    if s.h.cancel then some (goTo (.writeCleanup (.ended .cancelled)) s)
    else
      match s.h.source with
      | [] => some (goTo (.writeCleanup (.ended .exhausted)) s)
      | b :: rest => some (setHost { s.h with source := rest, task := .writeByte b } s)
  | .writeByte _ => none
  | .writeCleanup _ => none

/-- What is wrong with a command line, before the link is opened (R198). Which argument is named
when several are wrong: DESIGN CHOICE (log 21). -/
def badArgument (args : Args) : Option BadArgument :=
  if (Config.lineRateOfNat args.baudRate).isNone then some (.baudRate args.baudRate)
  else
    match args.track with
    | some k =>
      if k < 1 ∨ 4 < k then some (.track k)
      else if args.read && args.write then some .bothModes else none
    | none => if args.read && args.write then some .bothModes else none

/-- The host's state with the observations of a new top-level run cleared (R201, log 24). The cancel level
stays as it is: DESIGN CHOICE (log 33). -/
def freshRun (source : List Byte) (echo : Bool) (task : Task) (h : HostState) : HostState :=
  { h with source := source, echo := echo, sink := [], echoSink := [], report := none,
           trace := [], result := none, task := task }

/-- A reference program starts (R191, R192, R197, R198). A command line that does not parse ends at
once, before the link is opened (R199, log 32). DESIGN CHOICE (log 33): a program's start, the command
line's too, is no process start (R261), so it may find `H.cancel` still set; `processStart` is an event of
its own. -/
def launch (p : Program) (s : State) : State :=
  match p with
  | .readLoop => setHost (freshRun [] false .readCheck s.h) s
  | .writeLoop source echo => setHost (freshRun source echo .writeCheck s.h) s
  | .commandLine args stdin =>
    match badArgument args, Config.lineRateOfNat args.baudRate with
    | none, some rate => setHost (freshRun stdin args.echo (.openLink rate args) s.h) s
    | some which, _ => finish (.raised (.invalidArgument which)) (setHost (freshRun [] false .idle s.h) s)
    | none, none =>
      finish (.raised (.invalidArgument (.baudRate args.baudRate)))
        (setHost (freshRun [] false .idle s.h) s)
  | .unparsed => finish .syntaxError (setHost (freshRun [] false .idle s.h) s)

/-- The model code of an error (R221): not a wire value and not an exit code. -/
def HostError.code : HostError → Nat
  | .linkIO => 1
  | .echoMismatch _ _ => 2
  | .noTape => 3
  | .invalidArgument _ => 4

/-- The process exit code of a result (R199). -/
def exitCode : RunResult → Nat
  | .sendReturned _ _ => 0
  | .loopEnded _ => 0
  | .toolDone => 0
  | .syntaxError => Config.exitSyntax
  | .raised .linkIO => Config.exitFail
  | .raised (.echoMismatch _ _) => Config.exitFail
  | .raised .noTape => Config.exitNoTape
  | .raised (.invalidArgument _) => Config.exitSyntax

end Sys2Proof.Machine
end

