-- ==== Sys2Proof/Machine/LinkSession.lean ====
section
/-! DEFINITION. The Link Session (spec/43_link_session.md): `send`, byte by byte, and the echo check. -/

namespace Sys2Proof.Machine

/-- `Accept(op)` (R174): a DATA poll may be answered DATA or DATA_EOT, every other request only by
its own opcode. -/
def accept (op : Byte) : List Byte :=
  if op = Config.opData then [Config.opData, Config.opDataEot] else [op]

/-- The echo check (R174, R175): it reads the response's opcode only. -/
def checkEcho (op rop rdata : Byte) : SendOutcome :=
  if rop ∈ accept op then .returned rop rdata else .raised (.echoMismatch op rop)

/-- A host program's own frame has no response outstanding (R264): it may write its next byte. -/
def DirectFrame.clear : DirectFrame → Bool
  | .none => true
  | .opcodeSent => true
  | .awaitOpcode => false
  | .awaitData => false

/-- Where a direct writer's frame stands after a byte of its own has gone out. -/
def DirectFrame.afterWrite : DirectFrame → DirectFrame
  | .none => .opcodeSent
  | .opcodeSent => .awaitOpcode
  | .awaitOpcode => .awaitOpcode
  | .awaitData => .awaitData

/-- Where it stands after a byte of a `send` has gone out: that byte is the missing data byte of a
half-written frame, since a frame is any two bytes in a row (R53; log 23). -/
def DirectFrame.afterSend : DirectFrame → DirectFrame
  | .none => .none
  | .opcodeSent => .awaitOpcode
  | .awaitOpcode => .awaitOpcode
  | .awaitData => .awaitData

/-- `send` has transmitted its whole request and lacks a byte of the response. -/
def Transfer.receiving : Transfer → Bool
  | .none => false
  | .sendOpcode _ _ => false
  | .sendData _ => false
  | .recvOpcode => true
  | .recvData _ => true

/-- A whole request has gone out and the host has not received both bytes of its response: "A host must
not send a byte of a new request" now (R264). -/
def HostState.responseOutstanding (h : HostState) : Bool := h.transfer.receiving || !h.direct.clear

/-- The call of `send(op, data)` (R172): refused while a request is in flight (R171). The bytes to
transmit are those of `encode(op, data) = [op, data]` (R90). -/
def beginSend (op data : Byte) (s : State) : Host.Outcome State Fault Refusal :=
  if s.h.outstanding then .refused .sendWhileOutstanding
  else
    .next (setHost { s.h with
      outstanding := true
      reqOp := op
      transfer := .sendOpcode op data } s)

/-- `send` returns or raises: nothing is outstanding any more and the caller goes on (R33, R172). -/
def endSend (o : SendOutcome) (s : State) : State :=
  resume o (setHost { s.h with outstanding := false, transfer := .none } s)

/-- What `HostSend(b)` comes to (R11). -/
inductive Sent where
  /-- The transmission fails on a closed channel (R230 d). -/
  | failed
  /-- The byte would break R264: the spec gives the run no meaning (93 I6). -/
  | outOfTurn
  | sent (s : State)
deriving DecidableEq, Repr

/-- `HostSend(b)`: append to `host_tx` (R11), with the direct writer's frame then standing at `frame`. On a
closed channel it fails, and no byte goes out (R230 d); on an open one R264 is asked. -/
def hostSend (b : Byte) (frame : DirectFrame) (s : State) : Sent :=
  if s.hostToDevice.closed then .failed
  else if s.h.responseOutstanding then .outOfTurn
  else .sent (setHost { s.h with direct := frame } (setLinkRx (s.hostToDevice.queue ++ [b]) s))

/-- What `HostRecv()` finds (R11). -/
inductive Received where
  /-- No byte and no end-of-file: the Requester has no step. -/
  | nothing
  | endOfFile
  | byte (b : Byte) (s : State)
deriving DecidableEq, Repr

/-- `HostRecv()`: end-of-file on a closed channel (R230), else the next byte of `host_rx`. -/
def hostRecv (s : State) : Received :=
  if s.deviceToHost.closed then .endOfFile
  else
    match s.deviceToHost.queue with
    | [] => .nothing
    | b :: rest => .byte b (setHostRx rest s)

/-- Append to the trace of frames (R201 b). -/
def record (f : FrameRecord) (s : State) : State := setHost { s.h with trace := s.h.trace ++ [f] } s

/-- `send` transmits the opcode byte; a failure is `LinkIO` (R172, R173). -/
def sendOpcodeStep (b0 b1 : Byte) (s : State) : Host.Outcome State Fault Refusal :=
  match hostSend b0 s.h.direct.afterSend s with
  | .failed => .next (endSend (.raised .linkIO) s)
  | .outOfTurn => .refused .writeWhileResponseOutstanding
  | .sent s1 => .next (setHost { s1.h with transfer := .sendData b1 } s1)

/-- `send` transmits the data byte; a failure is `LinkIO` (R172, R173). -/
def sendDataStep (b1 : Byte) (s : State) : Host.Outcome State Fault Refusal :=
  match hostSend b1 s.h.direct.afterSend s with
  | .failed => .next (endSend (.raised .linkIO) s)
  | .outOfTurn => .refused .writeWhileResponseOutstanding
  | .sent s1 => .next (record (.request s1.h.reqOp b1) (setHost { s1.h with transfer := .recvOpcode } s1))

/-- `send` receives the first response byte, `none` where it blocks (R172, R177). -/
def recvOpcodeStep (s : State) : Option State :=
  match hostRecv s with
  | .nothing => none
  | .endOfFile => some (endSend (.raised .linkIO) s)
  | .byte r0 s1 => some (setHost { s1.h with transfer := .recvData r0 } s1)

/-- `send` receives the second response byte and checks the echo, `none` where it blocks (R172,
R174, R177). -/
def recvDataStep (r0 : Byte) (s : State) : Option State :=
  match hostRecv s with
  | .nothing => none
  | .endOfFile => some (endSend (.raised .linkIO) s)
  | .byte r1 s1 => some (endSend (checkEcho s1.h.reqOp r0 r1) (record (.response r0 r1) s1))

/-- The host's next step, `none` where it has none: a `send` in progress goes on (it is not
interruptible, R178); otherwise the program calls `send` or takes a control step. -/
def hostStep (s : State) : Option (Host.Outcome State Fault Refusal) :=
  match s.h.transfer with
  | .none =>
    match s.h.task.request with
    | some (op, data) => some (beginSend op data s)
    | none => (controlStep s).map .next
  | .sendOpcode b0 b1 => some (sendOpcodeStep b0 b1 s)
  | .sendData b1 => some (sendDataStep b1 s)
  | .recvOpcode => (recvOpcodeStep s).map .next
  | .recvData r0 => (recvDataStep r0 s).map .next

end Sys2Proof.Machine
end

