-- ==== Sys2Proof/Machine/Environment.lean ====
section
/-! DEFINITION. The environment's steps (R224 to R230, R260, R261) and the acts of host programs other
than the reference ones. An event that is not enabled leaves the state as it is (log 2). -/

namespace Sys2Proof.Machine

/-- `EotEvent()` (R225): sets the latch, whatever the state. -/
def eotEvent (s : State) : State := setTransport { s.t with eotLatched := true } s

/-- Change one channel. -/
def onChannel (c : Side) (f : Channel → Channel) (s : State) : State :=
  match c with
  | .hostToDevice => { s with hostToDevice := f s.hostToDevice }
  | .deviceToHost => { s with deviceToHost := f s.deviceToHost }

/-- A link fault (R230). A position at which no byte is in transit is no byte's: nothing happens
(log 15). -/
def applyFault (f : LinkFault) (s : State) : State :=
  match f with
  | .drop c pos => onChannel c (fun ch => { ch with queue := ch.queue.eraseIdx pos }) s
  | .replace c pos b => onChannel c (fun ch => { ch with queue := ch.queue.set pos b }) s
  | .insert c pos b => onChannel c (fun ch => { ch with queue := ch.queue.insertIdx pos b }) s
  | .close c => onChannel c (fun ch => { ch with closed := true }) s
  | .closeBoth =>
    onChannel .deviceToHost (fun ch => { ch with closed := true })
      (onChannel .hostToDevice (fun ch => { ch with closed := true }) s)

/-- A host program calls `send` (R170). While a request is outstanding the call is refused (R171);
while a reference program runs, the host's one thread cannot make it (log 20). -/
def callSend (op data : Byte) (s : State) : Host.Outcome State Fault Refusal :=
  if s.h.outstanding then .refused .sendWhileOutstanding
  else if s.h.task = .idle then
    beginSend op data (setHost { s.h with task := .call op data, result := none } s)
  else .next s

/-- A host program writes one byte on the channel itself. On an open channel, before it has both bytes of
the previous response, the write has no meaning (R264, log 23); while a program runs, the host's one thread
cannot make it (log 20). A write that fails on a closed channel changes nothing, and the frame stands where
it stood: DESIGN CHOICE (log 37). -/
def directWrite (b : Byte) (s : State) : Host.Outcome State Fault Refusal :=
  match hostSend b s.h.direct.afterWrite s with
  | .failed => .next s
  | .outOfTurn => .refused .writeWhileResponseOutstanding
  | .sent s1 => if s.h.task = .idle then .next s1 else .next s

/-- Such a host program reads one byte of the response it waits for (log 23). DESIGN CHOICE (log 34),
unsafe: where it waits for none, the read takes no byte and changes nothing; R264 restricts only what a
host sends. -/
def directRead (s : State) : State :=
  if s.h.task = .idle && !s.h.direct.clear then
    match hostRecv s with
    | .nothing => s
    | .endOfFile => setHost { s.h with direct := .none } s
    | .byte b s1 =>
      setHost { s1.h with
        direct := if s1.h.direct = .awaitOpcode then .awaitData else .none
        directIn := s1.h.directIn ++ [b] } s1
  else s

/-- One environment step. DESIGN CHOICE: a process start drops a running program where it stands, with no
cleanup and no result (log 35), and leaves the channels and the line to the new process, which may send
without a connect (log 36). -/
def envStep (e : Event) (s : State) : Host.Outcome State Fault Refusal :=
  match e with
  | .endOfTape => .next (eotEvent s)
  | .tapePresent level => .next { s with sense := { s.sense with tapePresent := level } }
  | .recEnable level => .next { s with sense := { s.sense with recEnable := level } }
  | .seekDone => .next (if s.d.mode = .seeking then seekDone s else s)
  | .readByte b => .next (if s.d.mode = .polling then answerPoll b s else s)
  | .cancel => .next (setHost { s.h with cancel := true } s)
  | .linkFault f => .next (applyFault f s)
  | .deviceReset => .next (resetDevice s)
  | .hostConnect rate => .next (if s.h.task = .idle then connect rate s else s)
  | .processStart => .next (setHost HostState.reset s)
  | .callSend op data => callSend op data s
  | .directWrite b => directWrite b s
  | .directRead => .next (directRead s)
  | .launch p => .next (if s.h.task = .idle then launch p s else s)

end Sys2Proof.Machine
end

