-- ==== Sys2Proof/Machine/Reading.lean ====
section
/-! DEFINITION. DATA, the poll for one byte read from tape (R150). Its response is `answerPoll`'s or
`answerPollByLatch`'s (R151). -/

namespace Sys2Proof.Machine

/-- DATA, its dispatch step (R150): the Responder waits for a byte or the latch. -/
def execData (_data : Byte) (s : State) : Host.Outcome State Fault Refusal :=
  .next (setMode .polling s)

end Sys2Proof.Machine
end

