-- ==== Sys2Proof/Machine/Reserved.lean ====
section
/-! DEFINITION. The reserved opcodes: 9 as a request and 11 to 255 (R119). -/

namespace Sys2Proof.Machine

/-- `RESERVED(op, data)` (R119): the echo and `P_RESERVED_DATA`, with no change of any register. -/
def answerReserved (op : Byte) (s : State) : State := respond op Config.reservedData s

/-- DATA_EOT as a request (R119): not a poll. -/
def execDataEot (_data : Byte) (s : State) : Host.Outcome State Fault Refusal :=
  .next (answerReserved Config.opDataEot s)

/-- Opcode 0x0B (R119). -/
def execReserved0B (_data : Byte) (s : State) : Host.Outcome State Fault Refusal :=
  .next (answerReserved 0x0B s)

/-- Opcodes 0x0C to 0x0F (R119). -/
def execReserved0C0F (op _data : Byte) (s : State) : Host.Outcome State Fault Refusal :=
  .next (answerReserved op s)

/-- Opcodes 0x10 to 0x1F (R119). -/
def execReserved101F (op _data : Byte) (s : State) : Host.Outcome State Fault Refusal :=
  .next (answerReserved op s)

/-- Opcodes 0x20 to 0x3F (R119). -/
def execReserved203F (op _data : Byte) (s : State) : Host.Outcome State Fault Refusal :=
  .next (answerReserved op s)

/-- Opcodes 0x40 to 0x7F (R119). -/
def execReserved407F (op _data : Byte) (s : State) : Host.Outcome State Fault Refusal :=
  .next (answerReserved op s)

/-- Opcodes 0x80 to 0xFF (R119). -/
def execReserved80FF (op _data : Byte) (s : State) : Host.Outcome State Fault Refusal :=
  .next (answerReserved op s)

end Sys2Proof.Machine
end

