-- ==== Sys2Proof/Machine/Status.lean ====
section
/-! DEFINITION. GET_STATUS and RESET_EOT: the commands on the end-of-tape latch (R110, R118). -/

namespace Sys2Proof.Machine

/-- GET_STATUS (R110): the status byte is sampled before the clear; non-zero data clears the latch
in the same step. -/
def execGetStatus (data : Byte) (s : State) : Host.Outcome State Fault Refusal :=
  .next (respond Config.opGetStatus (statusByte s.t s.sense)
    (if operandFlag data then clearLatch s else s))

/-- RESET_EOT (R118): the latch is cleared unconditionally, and the answer is 0. -/
def execResetEot (_data : Byte) (s : State) : Host.Outcome State Fault Refusal :=
  .next (respond Config.opResetEot Config.resetEotAck (clearLatch s))

end Sys2Proof.Machine
end

