-- ==== Sys2Proof/Machine/Transport.lean ====
section
/-! DEFINITION. SET_TRACK, SEEK, START_MOTOR and STOP_MOTOR: the commands on track and motion
(R111 to R114). -/

namespace Sys2Proof.Machine

/-- SET_TRACK (R111): the track is written if the argument is 0 to 3 and the tape is stationary. The
answer is the track held afterwards, so that the caller sees a rejection. -/
def execSetTrack (data : Byte) (s : State) : Host.Outcome State Fault Refusal :=
  let t' : TransportState :=
    match operandTrack data with
    | some track => if s.t.stationary then { s.t with track := track } else s.t
    | none => s.t
  .next (respond Config.opSetTrack (trackByte t'.track) (setTransport t' s))

/-- SEEK, its dispatch step (R112): fast-forward on, motor off, and the Responder waits for
`seek_done`. The response is `seekDone`'s. -/
def execSeek (_data : Byte) (s : State) : Host.Outcome State Fault Refusal :=
  .next (setMode .seeking (setTransport { s.t with motorOn := false, ffOn := true } s))

/-- START_MOTOR (R113). -/
def execStartMotor (_data : Byte) (s : State) : Host.Outcome State Fault Refusal :=
  .next (respond Config.opStartMotor (bool8 (!s.t.motorOn))
    (setTransport { s.t with motorOn := true, ffOn := false } s))

/-- STOP_MOTOR (R114). -/
def execStopMotor (_data : Byte) (s : State) : Host.Outcome State Fault Refusal :=
  .next (respond Config.opStopMotor (bool8 s.t.motorOn) (setTransport { s.t with motorOn := false } s))

end Sys2Proof.Machine
end

