-- ==== Sys2Proof/Machine/Writing.lean ====
section
/-! DEFINITION. WRITE, START_WRITE and STOP_WRITE (R115 to R117). -/

namespace Sys2Proof.Machine

/-- WRITE (R115): in write mode the byte goes out on `write_data`, else it is discarded. The answer
is the latch. -/
def execWrite (data : Byte) (s : State) : Host.Outcome State Fault Refusal :=
  .next (respond Config.opWrite (bool8 s.t.eotLatched)
    (if s.t.writeEnabled then writeChannel (operandByte data) s else s))

/-- START_WRITE (R116): write mode and motor on if write mode is off and a record-enabled tape is
present; the answer is whether write mode was entered. -/
def execStartWrite (_data : Byte) (s : State) : Host.Outcome State Fault Refusal :=
  .next (respond Config.opStartWrite (bool8 (canStartWrite s.t s.sense))
    (if canStartWrite s.t s.sense then
      setTransport { s.t with writeEnabled := true, motorOn := true, ffOn := false } s
    else s))

/-- STOP_WRITE (R117): write mode and motor off if write mode was on; the answer is whether it was. -/
def execStopWrite (_data : Byte) (s : State) : Host.Outcome State Fault Refusal :=
  .next (respond Config.opStopWrite (bool8 s.t.writeEnabled)
    (if s.t.writeEnabled then setTransport { s.t with writeEnabled := false, motorOn := false } s
    else s))

end Sys2Proof.Machine
end

