-- ==== Sys2Proof/Machine/Dispatch.lean ====
section
/-! DEFINITION. `Dispatch(op, data)` (R94): one arm per instruction. -/

namespace Sys2Proof.Machine

/-- The meaning of an instruction: the rest of the atomic step in which the Responder received the
frame's data byte (R94, R109). -/
def exec (i : Instr) (s : State) : Host.Outcome State Fault Refusal :=
  match i with
  | .getStatus d => Sys2Proof.Machine.execGetStatus d s
  | .setTrack d => Sys2Proof.Machine.execSetTrack d s
  | .seek d => Sys2Proof.Machine.execSeek d s
  | .startMotor d => Sys2Proof.Machine.execStartMotor d s
  | .stopMotor d => Sys2Proof.Machine.execStopMotor d s
  | .write d => Sys2Proof.Machine.execWrite d s
  | .startWrite d => Sys2Proof.Machine.execStartWrite d s
  | .stopWrite d => Sys2Proof.Machine.execStopWrite d s
  | .data d => Sys2Proof.Machine.execData d s
  | .dataEot d => Sys2Proof.Machine.execDataEot d s
  | .resetEot d => Sys2Proof.Machine.execResetEot d s
  | .reserved0B d => Sys2Proof.Machine.execReserved0B d s
  | .reserved0C0F op d => Sys2Proof.Machine.execReserved0C0F op d s
  | .reserved101F op d => Sys2Proof.Machine.execReserved101F op d s
  | .reserved203F op d => Sys2Proof.Machine.execReserved203F op d s
  | .reserved407F op d => Sys2Proof.Machine.execReserved407F op d s
  | .reserved80FF op d => Sys2Proof.Machine.execReserved80FF op d s

end Sys2Proof.Machine
end

