-- ==== Sys2Proof/Machine/Responder.lean ====
section
/-! DEFINITION. The Responder's cycle (R93 to R99): frame assembly, dispatch, and the completion of a
DATA poll on the latch. -/

namespace Sys2Proof.Machine

/-- `Dispatch(op, data)` (R94): the frame's two bytes are decoded and the instruction runs. The
refusal is never reached: decoding is total on two bytes (R78). -/
def dispatch (op data : Byte) (s : State) : Host.Outcome State Fault Refusal :=
  match decode (codecEncode op data) with
  | .ok i => exec i s
  | .error _ => .refused .undecodableFrame

/-- `ResponderRecv()` (R93): the first byte of a frame is held, the second completes the frame and
dispatches it in the same atomic step. `none` where no byte is present. -/
def receiveByte (s : State) : Option (Host.Outcome State Fault Refusal) :=
  match recvByte s with
  | none => none
  | some (b, s1) =>
    match s1.d.phase with
    | .opcode => some (.next (holdOpcode b s1))
    | .data => some (dispatch s1.d.op b (completeFrame s1))

/-- The Responder's own next step, `none` where it has none. Idle, it receives (R93). Seeking or
Polling, it reads no byte (R96); a poll it completes itself when the latch is set and no byte has
been presented (R151 b, log 29). -/
def responderStep (s : State) : Option (Host.Outcome State Fault Refusal) :=
  match s.d.mode with
  | .idle => receiveByte s
  | .seeking => none
  | .polling => if s.t.eotLatched then some (.next (answerPollByLatch s)) else none

end Sys2Proof.Machine
end

