-- ==== Sys2Proof/Machine/Schedule.lean ====
section
/-! DEFINITION. Which agent takes the next atomic step (R7, R58): the script's first turn, or, when the
script is empty, a turn of the free schedule (log 1, log 4); and what a line does whose ends run at
different rates. -/

namespace Sys2Proof.Machine

/-! ### The line (R230, R262 item 1, D31) -/

/-- One free value of the noise on the bytes in transit: a byte inserted before the oldest (R230 c), or
the oldest replaced (R230 b). -/
def garble (n : Nat) (queue : List Byte) : List Byte :=
  if Config.noiseInserts n then Config.noiseByte n :: queue
  else
    match queue with
    | [] => []
    | _ :: rest => Config.noiseByte n :: rest

/-- The bytes in transit as the line delivers them: as sent when both ends run at the same rate,
garbled otherwise. -/
def delivered (line : LineState) (n : Nat) (queue : List Byte) : List Byte :=
  if line.rate.same then queue else garble n queue

/-- The noise of one step: none at the same rate; at different rates each channel is garbled by free
values, since "A mismatch produces link faults" (R262, R230 b and c; log 31). -/
def lineNoise (s : State) : State :=
  { s with
    hostToDevice :=
      { s.hostToDevice with queue := delivered s.line s.line.noise s.hostToDevice.queue }
    deviceToHost :=
      { s.deviceToHost with queue := delivered s.line (s.line.noise + 1) s.deviceToHost.queue }
    line := if s.line.rate.same then s.line else { s.line with noise := s.line.noise + 2 } }

/-- The state in which the agent whose turn it is takes its step: the turn taken, the line's noise on
the bytes in transit. -/
def settle (s : State) : State := lineNoise (dropTurn s)

/-! ### Turns -/

/-- Whose turn it is. -/
def nextTurn (s : State) : Turn :=
  match s.script with
  | [] => Config.freeTurn s.turns
  | turn :: _ => turn

/-- An agent's or the environment's turn. An agent that has no step leaves the state as it is (log 2):
a run that waits for ever is an infinite run (R177, log 3). -/
def takeTurn (turn : Turn) (s : State) : Host.Outcome State Fault Refusal :=
  match turn with
  | .responder => (responderStep s).getD (.next s)
  | .host => (hostStep s).getD (.next s)
  | .event e => envStep e s

/-- One atomic step of the block. -/
def advance (s : State) : Host.Outcome State Fault Refusal := takeTurn (nextTurn s) (settle s)

end Sys2Proof.Machine
end

