-- ==== Sys2Proof/Machine/Step.lean ====
section
/-! DEFINITION. The step of the block, and how a frame is placed where the next step fetches it. -/

namespace Sys2Proof.Machine

/-- One atomic step (R55, R231). -/
def step (s : State) : Host.Outcome State Fault Refusal := advance s

/-- `s` with the frame `w` where the next step takes it from (log 12). The block fetches no
instruction and stores none (R61): a command runs in the step that receives its data byte, so the
opcode byte is held in `D.op`, the data byte is next on `link_rx`, and the Responder has the turn. -/
def State.withFetchWord (s : State) (nbits w : Nat) : State :=
  placeFrame (frameOfWord nbits w).1 (frameOfWord nbits w).2 s

end Sys2Proof.Machine
end

