-- ==== Sys2Proof/Safety.lean ====
section
/-! DEFINITION. The terms in which claims about the block are made: whose turn it is, premises on turns
and on the link, the invariants of the device, of the host and of the link, and shapes of states. -/

namespace Sys2Proof.Safety

open Sys2Proof.Machine

/-! ### Turns -/

/-- The turn of step `k` of a run from `s`: no step but by taking it touches the schedule. -/
def turnAt (k : Nat) (s : State) : Turn :=
  match s.script[k]? with
  | some turn => turn
  | none => Config.freeTurn (s.turns + (k - s.script.length))

/-- The turn is the Responder's. -/
def responderTurn (s : State) : Prop := nextTurn s = .responder

/-- The turn is an environment event, or the act of a host program. -/
def eventTurn (e : Event) (s : State) : Prop := nextTurn s = .event e

/-! ### Premises (R230, R262, R201) -/

/-- Both sides use the same line rate (R6, R262 item 1). -/
def SameLineRate (s : State) : Prop := s.line.rate.same = true

/-- The command line's rate, if it has one, is the device's. -/
def sameRate (args : Args) : Bool :=
  match Config.lineRateOfNat args.baudRate with
  | some r => (HostRate.chosen r).same
  | none => true

/-- The turn brings no link fault, neither one of R230 a to d nor a line of mismatched rates (D31). -/
def faultFree : Turn → Bool
  | .event (.linkFault _) => false
  | .event (.hostConnect rate) => rate.same
  | .event (.launch (.commandLine args _)) => sameRate args
  | _ => true

/-- The state of a link on which no fault has taken hold: both channels open, both ends at the same
rate, and no program about to open it at another. -/
structure LinkSound (s : State) : Prop where
  open1 : s.hostToDevice.closed = false
  open2 : s.deviceToHost.closed = false
  rate : SameLineRate s
  opening : ∀ (r : Config.LineRate) (args : Args), s.h.task = .openLink r args →
    (HostRate.chosen r).same = true

/-- `LinkReliable` (R230), for the `k` steps of a run from `s`: the link is sound and no turn brings a
link fault. -/
def LinkReliable (k : Nat) (s : State) : Prop :=
  LinkSound s ∧ ∀ i : Nat, i < k → faultFree (turnAt i s) = true

/-- The turn does not pull one end out of the exchange: it is no device reset, no start of another
host process, and no host program writing or reading the channel past the Link Session, which owns
it (R235). -/
def undisturbing : Turn → Bool
  | .event .deviceReset => false
  | .event .processStart => false
  | .event (.directWrite _) => false
  | .event .directRead => false
  | _ => true

/-- No turn of `k` steps from `s` disturbs the exchange. -/
def Undisturbed (k : Nat) (s : State) : Prop := ∀ i : Nat, i < k → undisturbing (turnAt i s) = true

/-! ### Device invariant (R23, R28) -/

/-- Motor and fast-forward exclude each other (R28), and the fast-forward solenoid is on exactly
"for the duration of" a SEEK's positioning (R23). -/
structure DeviceInv (s : State) : Prop where
  exclusive : ¬ (s.t.motorOn = true ∧ s.t.ffOn = true)
  ffWhileSeeking : s.t.ffOn = true ↔ s.d.mode = .seeking

/-! ### Host invariant (R33, R172) -/

/-- The bytes `send` still has to transmit are those of the frame its caller asked for. -/
def transferMatches (op data : Byte) : Transfer → Prop
  | .none => False
  | .sendOpcode b0 b1 => b0 = op ∧ b1 = data
  | .sendData b1 => b1 = data
  | .recvOpcode => True
  | .recvData _ => True

/-- A request is outstanding exactly while `send` is in progress, and then it is the request of the
running program's control point. -/
structure HostInv (h : HostState) : Prop where
  outstanding : h.outstanding = true ↔ h.transfer ≠ .none
  sends : h.transfer ≠ .none →
    ∃ data, h.task.request = some (h.reqOp, data) ∧ transferMatches h.reqOp data h.transfer

/-! ### Cleanup (R193) -/

/-- The frame is a cleanup command: STOP_MOTOR or STOP_WRITE, as the loops send them. -/
def isCleanup : FrameRecord → Bool
  | .request op data => decide (op = Config.opStopMotor ∨ op = Config.opStopWrite) && decide (data = 0x00)
  | .response _ _ => false

/-- How many cleanup frames the running (or last) program has transmitted. -/
def cleanups (h : HostState) : Nat := h.trace.countP isCleanup

/-- What has been transmitted of the request in progress, in whole requests. -/
def requestsDone : Transfer → Nat
  | .none => 0
  | .sendOpcode _ _ => 0
  | .sendData _ => 0
  | .recvOpcode => 1
  | .recvData _ => 1

/-- The cleanup frame is transmitted once, and only in the cleanup; a loop that has ended normally
has sent it (R193). A program of direct `send` calls is free. -/
def cleanupCount (h : HostState) : Prop :=
  match h.task with
  | .idle => ∀ r, h.result = some (.loopEnded r) → cleanups h = 1
  | .call _ _ => ∀ r, h.result ≠ some (.loopEnded r)
  | .readCleanup _ => cleanups h = requestsDone h.transfer
  | .writeCleanup _ => cleanups h = requestsDone h.transfer
  | _ => cleanups h = 0

/-- The invariant of the loops' cleanup. -/
structure CleanupInv (h : HostState) : Prop where
  host : HostInv h
  count : cleanupCount h

/-! ### Link invariant (R57, R76, R92) -/

/-- The Responder is between two commands. -/
def resting (s : State) : Prop := s.d.mode = .idle ∧ s.d.phase = .opcode

/-- Nothing is in transit. -/
def wireEmpty (s : State) : Prop := s.hostToDevice.queue = [] ∧ s.deviceToHost.queue = []

/-- Where the one frame in flight is: with the host, on the wire, with the device, or on its way
back, and then with a response opcode the echo check accepts. -/
def frameInFlight (s : State) : Prop :=
  match s.h.transfer with
  | .none => resting s ∧ wireEmpty s
  | .sendOpcode _ _ => resting s ∧ wireEmpty s
  | .sendData _ =>
    s.d.mode = .idle ∧ s.deviceToHost.queue = [] ∧
      ((s.d.phase = .opcode ∧ s.hostToDevice.queue = [s.h.reqOp]) ∨
       (s.d.phase = .data ∧ s.d.op = s.h.reqOp ∧ s.hostToDevice.queue = []))
  | .recvOpcode =>
    ∃ data, s.h.task.request = some (s.h.reqOp, data) ∧
      ((resting s ∧ s.hostToDevice.queue = [s.h.reqOp, data] ∧ s.deviceToHost.queue = []) ∨
       (s.d.mode = .idle ∧ s.d.phase = .data ∧ s.d.op = s.h.reqOp ∧
         s.hostToDevice.queue = [data] ∧ s.deviceToHost.queue = []) ∨
       (s.d.mode = .seeking ∧ s.d.phase = .opcode ∧ s.h.reqOp = Config.opSeek ∧ wireEmpty s) ∨
       (s.d.mode = .polling ∧ s.d.phase = .opcode ∧ s.h.reqOp = Config.opData ∧ wireEmpty s) ∨
       (resting s ∧ s.hostToDevice.queue = [] ∧
         ∃ rop rdata, s.deviceToHost.queue = [rop, rdata] ∧ rop ∈ accept s.h.reqOp))
  | .recvData r0 =>
    resting s ∧ s.hostToDevice.queue = [] ∧ r0 ∈ accept s.h.reqOp ∧
      ∃ rdata, s.deviceToHost.queue = [rdata]

/-- A link error: `LinkIO` or `EchoMismatch` (R221). -/
def isLinkError : HostError → Bool
  | .linkIO => true
  | .echoMismatch _ _ => true
  | .noTape => false
  | .invalidArgument _ => false

/-- No link error has been raised, neither as a result nor in a loop that is cleaning up. -/
def noLinkError (h : HostState) : Prop :=
  (∀ e, h.result = some (.raised e) → isLinkError e = false) ∧
  (∀ e, h.task ≠ .readCleanup (.raised e)) ∧ (∀ e, h.task ≠ .writeCleanup (.raised e))

/-- The invariant of steps on a reliable link that nothing disturbs: one frame is in flight, the
device executes the frame the host sent, and no link error is ever raised. -/
structure LinkInv (s : State) : Prop where
  sound : LinkSound s
  direct : s.h.direct = .none
  host : HostInv s.h
  frame : frameInFlight s
  noError : noLinkError s.h

/-! ### Shapes of states -/

/-- `s` with one response appended to `link_tx`, opcode first (R51, R95), and nothing else changed. -/
def answered (rop rdata : Byte) (s : State) : State :=
  { s with deviceToHost := { s.deviceToHost with queue := s.deviceToHost.queue ++ [rop, rdata] } }

/-- The Responder is about to receive the data byte of the frame `[op][data]` (R93): the byte is the next
of `link_rx` once the line has delivered it. -/
def frameArrives (op data : Byte) (s : State) : Prop :=
  s.d.mode = .idle ∧ s.d.phase = .data ∧ s.d.op = op ∧ (settle s).hostToDevice.queue.head? = some data

/-- `s` with the host's `send(op, data)` begun: the request outstanding, its two bytes to be transmitted,
opcode first, and nothing else changed (R172). -/
def requesting (op data : Byte) (s : State) : State :=
  { s with h := { s.h with outstanding := true, reqOp := op, transfer := .sendOpcode op data } }

/-- The host is between two sends. -/
def betweenSends (s : State) : Prop :=
  s.h.transfer = .none ∧ s.h.outstanding = false

/-- How a loop that was ending as `pending` ends when its cleanup's `send` raises `e` (R193). -/
def cleanupRaises (pending : LoopExit) (e : HostError) : HostError :=
  match pending with
  | .ended _ => e
  | .raised first => first

/-- How a program at a control point takes an error its `send` raises (R193, R222): a direct caller, the
command line and a tape check end with it; a loop past its tape check goes to its cleanup with it; a
cleanup ends the program with it or with the error the loop was already raising. -/
def takesError (task : Task) (e : HostError) (h : HostState) : Prop :=
  match task with
  | .call _ _ => h.task = .idle ∧ h.result = some (.raised e)
  | .track _ => h.task = .idle ∧ h.result = some (.raised e)
  | .seek _ => h.task = .idle ∧ h.result = some (.raised e)
  | .status _ => h.task = .idle ∧ h.result = some (.raised e)
  | .readCheck => h.task = .idle ∧ h.result = some (.raised e)
  | .writeCheck => h.task = .idle ∧ h.result = some (.raised e)
  | .readStart => h.task = .readCleanup (.raised e)
  | .readPoll => h.task = .readCleanup (.raised e)
  | .writeStart => h.task = .writeCleanup (.raised e)
  | .writeByte _ => h.task = .writeCleanup (.raised e)
  | .readCleanup pending => h.task = .idle ∧ h.result = some (.raised (cleanupRaises pending e))
  | .writeCleanup pending => h.task = .idle ∧ h.result = some (.raised (cleanupRaises pending e))
  | .idle => True
  | .openLink _ _ => True
  | .modes _ => True
  | .readTop => True
  | .readWait => True
  | .writeSettle => True
  | .writeTop => True

/-- Apply a change to the state of a `next` outcome. -/
def mapNext (f : State → State) : Host.Outcome State Fault Refusal → Host.Outcome State Fault Refusal
  | .next s => .next (f s)
  | .fault r => .fault r
  | .refused r => .refused r

/-- The control points inside the read loop's `try` (R191). -/
def inReadTry : Task → Prop
  | .readStart => True
  | .readTop => True
  | .readPoll => True
  | .readWait => True
  | _ => False

/-- The control points inside the write loop's `try` (R192). -/
def inWriteTry : Task → Prop
  | .writeStart => True
  | .writeSettle => True
  | .writeTop => True
  | .writeByte _ => True
  | _ => False

/-- The link is quiet: nothing in transit, both channels open, both ends at the same rate, the Responder between commands, no
host program running. -/
structure Quiet (s : State) : Prop where
  resting : resting s
  wireEmpty : wireEmpty s
  open1 : s.hostToDevice.closed = false
  open2 : s.deviceToHost.closed = false
  rate : SameLineRate s
  task : s.h.task = .idle
  outstanding : s.h.outstanding = false
  transfer : s.h.transfer = .none
  direct : s.h.direct = .none

end Sys2Proof.Safety
end

