-- ==== Sys2Proof/Certificates/Slice0/Obligations.lean ====
section
/-! DEFINITION. The statements for the provers, from the numbered rules of spec/. A `[decision: D..]`
of the spec a statement rests on is named in its docstring.

A step is taken in `settle s`: `s` with its turn taken off the schedule and, on a line whose ends run at
different rates, with the line's noise on the bytes in transit. What `settle` does is itself stated, in
`LineDeliversBytesAsSentAtTheSameRate`. -/

open Sys2Proof Sys2Proof.Machine Sys2Proof.Safety

/-! ### Encoding -/

/-- R90, R91: encode puts the opcode first, decode takes exactly two bytes, and each undoes the other. -/
def Obligations.CodecEncodesTwoBytesAndDecodesOnlyTwo : Prop :=
  (∀ op data : Byte, codecEncode op data = [op, data] ∧ codecDecode (codecEncode op data) = some (op, data)) ∧
  (∀ (bytes : List Byte) (op data : Byte), codecDecode bytes = some (op, data) → codecEncode op data = bytes) ∧
  (∀ bytes : List Byte, codecDecode bytes = none ↔ bytes.length ≠ 2)

/-- R73: the opcode byte alone selects the command, by all its 8 bits. -/
def Obligations.OpcodeByteSelectsCommand : Prop :=
  (∀ d : Byte,
    decode [0x00, d] = .ok (.getStatus d) ∧ decode [0x01, d] = .ok (.setTrack d) ∧
    decode [0x02, d] = .ok (.seek d) ∧ decode [0x03, d] = .ok (.startMotor d) ∧
    decode [0x04, d] = .ok (.stopMotor d) ∧ decode [0x05, d] = .ok (.write d) ∧
    decode [0x06, d] = .ok (.startWrite d) ∧ decode [0x07, d] = .ok (.stopWrite d) ∧
    decode [0x08, d] = .ok (.data d) ∧ decode [0x09, d] = .ok (.dataEot d) ∧
    decode [0x0A, d] = .ok (.resetEot d)) ∧
  (∀ op d : Byte, 0x0A < op → ∃ i : Instr, decode [op, d] = .ok i ∧
    (i = .reserved0B d ∨ i = .reserved0C0F op d ∨ i = .reserved101F op d ∨ i = .reserved203F op d ∨
      i = .reserved407F op d ∨ i = .reserved80FF op d))

/-- R82: every frame fits exactly one row of the table, whatever its data byte. -/
def Obligations.EveryFrameFitsExactlyOneRow : Prop :=
  ∀ op data : Byte, ∃ r ∈ opcodeTable, r.fits op = true ∧ (∀ r' ∈ opcodeTable, r'.fits op = true → r' = r) ∧
    decode [op, data] = .ok (instrOfRow r.row op data)

/-- R78, R82, R90: decoding the encoding of a well-formed instruction gives it back, every operand bit. -/
def Obligations.DecodeOfEncodeIsIdentity : Prop :=
  ∀ i : Instr, i.wf = true → decode (encode i) = .ok i

/-- The other direction: what decodes is well-formed, and encodes back to the bytes it came from. -/
def Obligations.EncodeOfDecodeIsIdentity : Prop :=
  ∀ (bytes : List Byte) (i : Instr), decode bytes = .ok i → i.wf = true ∧ encode i = bytes

/-- Frames written out bit by bit from R82's patterns, given as numbers `F[15:0]`. -/
def Obligations.WrittenOutFramesDecode : Prop :=
  decodeTableWord 16 0b0000000000000001 = some (.getStatus 0x01) ∧
  decodeTableWord 16 0b0000000100000011 = some (.setTrack 0x03) ∧
  decodeTableWord 16 0b0000010101000001 = some (.write 0x41) ∧
  decodeTableWord 16 0b0000100000000000 = some (.data 0x00) ∧
  decodeTableWord 16 0b0000101011111111 = some (.resetEot 0xFF) ∧
  decodeTableWord 16 0b0001001000110100 = some (.reserved101F 0x12 0x34) ∧
  decodeTableWord 16 0b1111111111111111 = some (.reserved80FF 0xFF 0xFF)

/-! ### Reset -/

/-- R37, R260 (values by the spec's decision D23; `D.op` and the sense levels are not stated). -/
def Obligations.ResetLeavesTransportOff : Prop :=
  State.reset.t = { track := 0, motorOn := false, ffOn := false, writeEnabled := false, eotLatched := false } ∧
  State.reset.d.phase = .opcode ∧ State.reset.d.mode = .idle ∧
  motorDrive State.reset = false ∧ ffDrive State.reset = false ∧ writeGate State.reset = false ∧
  trackSel State.reset = 0 ∧ State.reset.h.outstanding = false ∧ State.reset.h.cancel = false

/-- R260 (decision D23): a device reset during a run puts `T`, phase and mode at their reset values and
touches neither the wire nor the host; a half-received frame and a SEEK or DATA in progress are gone. -/
def Obligations.DeviceResetKeepsWireAndHost : Prop :=
  ∀ s : State, eventTurn .deviceReset s → ∃ t : State, step s = .next t ∧
    t.t = State.reset.t ∧ t.d.phase = .opcode ∧ t.d.mode = .idle ∧
    t.hostToDevice = (settle s).hostToDevice ∧ t.deviceToHost = (settle s).deviceToHost ∧
    t.line = (settle s).line ∧ t.h = s.h ∧ t.sense = s.sense ∧ t.writeData = s.writeData ∧
    t.draws = s.draws

/-! ### The commands: result, completion and frame

Each conclusion is an equation for the next state, so it is also the frame: a field not written there
is unchanged. -/

/-- R110, R30 (decisions D9, D10): bits 7:4 are 0 and bit 2 is the latch before the clear. -/
def Obligations.GetStatusReportsThenClears : Prop :=
  ∀ (data : Byte) (s : State), ∃ st : Byte,
    exec (.getStatus data) s = .next (answered 0x00 st
      { s with t := { s.t with eotLatched := if data = 0x00 then s.t.eotLatched else false } }) ∧
    st.extractLsb' 0 2 = s.t.track ∧ st.getLsbD 2 = s.t.eotLatched ∧
    st.getLsbD 3 = s.sense.tapePresent ∧ st.extractLsb' 4 4 = 0

/-- R111 (decision D11): accepted for 0 to 3 on a stationary tape, otherwise rejected; the answer is the
track held afterwards. -/
def Obligations.SetTrackAcceptsOnlyInRangeAndStationary : Prop :=
  ∀ (data : Byte) (s : State),
    exec (.setTrack data) s =
      if data.toNat ≤ 3 ∧ s.t.motorOn = false ∧ s.t.ffOn = false then
        .next (answered 0x01 data { s with t := { s.t with track := BitVec.ofNat 2 data.toNat } })
      else .next (answered 0x01 (BitVec.ofNat 8 s.t.track.toNat) s)

/-- R112 (decisions D12, D43), first step: fast-forward on, motor off, no response yet. -/
def Obligations.SeekStartsFastForward : Prop :=
  ∀ (data : Byte) (s : State),
    exec (.seek data) s =
      .next { s with t := { s.t with motorOn := false, ffOn := true }, d := { s.d with mode := .seeking } }

/-- R112, R227 (decision D12), second step: `seek_done` ends a SEEK and nothing else. That it is a
stutter outside a SEEK is the model's choice (log 2). -/
def Obligations.SeekDoneAnswersSeek : Prop :=
  ∀ s : State, eventTurn .seekDone s →
    (s.d.mode = .seeking →
      step s = .next (answered 0x02 0x00
        { settle s with t := { s.t with ffOn := false }, d := { s.d with mode := .idle } })) ∧
    (s.d.mode ≠ .seeking → step s = .next (settle s))

/-- R113 (decisions D8, D13). -/
def Obligations.StartMotorTurnsMotorOn : Prop :=
  ∀ (data : Byte) (s : State),
    exec (.startMotor data) s =
      .next (answered 0x03 (if s.t.motorOn then 0x00 else 0x01)
        { s with t := { s.t with motorOn := true, ffOn := false } })

/-- R114 (decisions D8, D14). -/
def Obligations.StopMotorTurnsMotorOff : Prop :=
  ∀ (data : Byte) (s : State),
    exec (.stopMotor data) s =
      .next (answered 0x04 (if s.t.motorOn then 0x01 else 0x00)
        { s with t := { s.t with motorOn := false } })

/-- R115 (decisions D8, D18): the byte is emitted in write mode and discarded outside it; the answer is
the latch. -/
def Obligations.WriteEmitsInWriteModeOnly : Prop :=
  ∀ (data : Byte) (s : State),
    exec (.write data) s =
      .next (answered 0x05 (if s.t.eotLatched then 0x01 else 0x00)
        { s with writeData := if s.t.writeEnabled then s.writeData ++ [data] else s.writeData })

/-- R116 (decisions D8, D15, D17). -/
def Obligations.StartWriteNeedsRecordableTape : Prop :=
  ∀ (data : Byte) (s : State),
    exec (.startWrite data) s =
      if s.t.writeEnabled = false ∧ s.sense.tapePresent = true ∧ s.sense.recEnable = true then
        .next (answered 0x06 0x01
          { s with t := { s.t with writeEnabled := true, motorOn := true, ffOn := false } })
      else .next (answered 0x06 0x00 s)

/-- R117 (decisions D8, D16). -/
def Obligations.StopWriteLeavesWriteMode : Prop :=
  ∀ (data : Byte) (s : State),
    exec (.stopWrite data) s =
      if s.t.writeEnabled = true then
        .next (answered 0x07 0x01 { s with t := { s.t with writeEnabled := false, motorOn := false } })
      else .next (answered 0x07 0x00 s)

/-- R150 (decision D19), first step: the poll waits, with no response yet. -/
def Obligations.DataStartsPolling : Prop :=
  ∀ (data : Byte) (s : State), exec (.data data) s = .next { s with d := { s.d with mode := .polling } }

/-- R151 a (decision D20): a presented byte completes a poll and nothing else; the answer is DATA_EOT
exactly when the latch is set, and the latch stays. That the event is a stutter outside a poll is the
model's choice (log 2). -/
def Obligations.ReadByteAnswersPoll : Prop :=
  ∀ (s : State) (b : Byte), eventTurn (.readByte b) s →
    (s.d.mode = .polling →
      step s = .next (answered (if s.t.eotLatched then 0x09 else 0x08) b
        { settle s with d := { s.d with mode := .idle } })) ∧
    (s.d.mode ≠ .polling → step s = .next (settle s))

/-- R151 b (decision D20): with no byte presented the Responder completes a poll only when the latch is
set, with some byte, of which nothing is said (log 10). The model's choices: that this completion is the
Responder's own turn, where R151 and R231 leave answering or waiting to the environment (log 29), and that
its turn with the latch clear is a stutter (log 2, log 3). -/
def Obligations.LatchAnswersPollWithSomeByte : Prop :=
  ∀ s : State, responderTurn s → s.d.mode = .polling →
    (s.t.eotLatched = true → ∃ b : Byte,
      step s = .next (answered 0x09 b
        { settle s with d := { s.d with mode := .idle }, draws := s.draws + 1 })) ∧
    (s.t.eotLatched = false → step s = .next (settle s))

/-- R118. -/
def Obligations.ResetEotClearsLatch : Prop :=
  ∀ (data : Byte) (s : State),
    exec (.resetEot data) s = .next (answered 0x0A 0x00 { s with t := { s.t with eotLatched := false } })

/-- R119 (decision D6): opcode 9 as a request and 11 to 255 are echoed with data 0x00 and have no other
effect. -/
def Obligations.ReservedOpcodesOnlyEcho : Prop :=
  (∀ (d : Byte) (s : State), exec (.dataEot d) s = .next (answered 0x09 0x00 s)) ∧
  (∀ (d : Byte) (s : State), exec (.reserved0B d) s = .next (answered 0x0B 0x00 s)) ∧
  (∀ (op d : Byte) (s : State),
    exec (.reserved0C0F op d) s = .next (answered op 0x00 s) ∧
    exec (.reserved101F op d) s = .next (answered op 0x00 s) ∧
    exec (.reserved203F op d) s = .next (answered op 0x00 s) ∧
    exec (.reserved407F op d) s = .next (answered op 0x00 s) ∧
    exec (.reserved80FF op d) s = .next (answered op 0x00 s)) ∧
  (∀ (op d : Byte) (i : Instr) (s : State), op = 0x09 ∨ 0x0A < op → decode [op, d] = .ok i →
    exec i s = .next (answered op 0x00 s))

/-! ### The Responder's cycle -/

/-- R94, R93: when the data byte of a frame arrives in the Responder's turn, the step is the command's
meaning, with the byte taken and the phase back at Opcode. -/
def Obligations.StepRunsDecodedInstruction : Prop :=
  ∀ (s : State) (op data : Byte) (i : Instr),
    responderTurn s → frameArrives op data s → decode [op, data] = .ok i →
    step s = exec i { settle s with
      hostToDevice :=
        { (settle s).hostToDevice with queue := (settle s).hostToDevice.queue.tail }
      d := { s.d with phase := .opcode } }

/-- R230, R262 item 1 (decision D31): at the same rate a step finds every byte in transit as it was sent,
and only its turn is taken. At different rates each channel has been through one link fault of R230 b or
c, a byte of which nothing is said; that the fault falls on the oldest byte and in every step is the
model's choice (log 31). -/
def Obligations.LineDeliversBytesAsSentAtTheSameRate : Prop :=
  (∀ s : State, SameLineRate s →
    settle s = { s with
      script := s.script.tail
      turns := if s.script.isEmpty then s.turns + 1 else s.turns }) ∧
  (∀ s : State, ¬ SameLineRate s → ∃ (b c : Byte) (q r : List Byte) (n : Nat),
    settle s = { s with
      script := s.script.tail
      turns := if s.script.isEmpty then s.turns + 1 else s.turns
      hostToDevice := { s.hostToDevice with queue := q }
      deviceToHost := { s.deviceToHost with queue := r }
      line := { s.line with noise := n } } ∧
    (q = s.hostToDevice.queue.set 0 b ∨ q = b :: s.hostToDevice.queue) ∧
    (r = s.deviceToHost.queue.set 0 c ∨ r = c :: s.deviceToHost.queue))

/-- The host's way of placing a frame (log 12): the very next step runs exactly the frame's command. -/
def Obligations.PlacedFrameRunsInTheNextStep : Prop :=
  ∀ (s : State) (op data : Byte) (i : Instr), decode [op, data] = .ok i →
    step (s.withFetchWord 16 (op.toNat * 256 + data.toNat)) =
      exec i { s with
        d := { phase := .opcode, op := op, mode := .idle }
        line := { s.line with rate := .baud } } ∧
    decodeTableWord 16 (op.toNat * 256 + data.toNat) = some i

/-- R93 (decision D4): the first byte of a frame is held, and nothing else happens. -/
def Obligations.FirstByteOfFrameIsHeld : Prop :=
  ∀ (s : State) (b : Byte) (rest : List Byte),
    responderTurn s → s.d.mode = .idle → s.d.phase = .opcode → (settle s).hostToDevice.queue = b :: rest →
    step s = .next { settle s with
      hostToDevice := { s.hostToDevice with queue := rest }
      d := { s.d with op := b, phase := .data } }

/-- R96 (decision D5): while Seeking or Polling the Responder takes no byte and its half-frame stays; and
(R271 a and b, 93 I14) neither mode ends but by what completes it, or a device reset. That a poll
completed by the latch is the Responder's own turn is the model's choice (log 29). -/
def Obligations.BusyResponderReadsNoByte : Prop :=
  (∀ s t : State, s.d.mode ≠ .idle → takeTurn .responder s = .next t →
    t.hostToDevice = s.hostToDevice ∧ t.d.phase = s.d.phase ∧ t.d.op = s.d.op ∧ t.t = s.t) ∧
  (∀ s t : State, s.d.mode ≠ .idle → step s = .next t → t.d.mode ≠ s.d.mode →
    t.d.mode = .idle ∧
    (eventTurn .deviceReset s ∨
     (s.d.mode = .seeking ∧ eventTurn .seekDone s) ∨
     (s.d.mode = .polling ∧
       ((∃ b : Byte, eventTurn (.readByte b) s) ∨ (responderTurn s ∧ s.t.eotLatched = true)))))

/-- R95, R99 (decisions D32, D48): what is on its way to the host changes only by one whole response to
a request of that opcode (DATA: 8 or 9), by the host taking its oldest byte, or by a link fault. -/
def Obligations.DeviceTransmitsOnlyResponses : Prop :=
  ∀ s t : State, step s = .next t →
    t.deviceToHost.queue = (settle s).deviceToHost.queue ∨
    (∃ b : Byte, (settle s).deviceToHost.queue = b :: t.deviceToHost.queue) ∨
    (∃ f : LinkFault, eventTurn (.linkFault f) s) ∨
    (∃ rop rdata : Byte, t.deviceToHost.queue = (settle s).deviceToHost.queue ++ [rop, rdata] ∧
      ((responderTurn s ∧ rop ≠ 0x02 ∧ rop ≠ 0x08 ∧ ∃ data : Byte, frameArrives rop data s) ∨
       (eventTurn .seekDone s ∧ s.d.mode = .seeking ∧ rop = 0x02 ∧ rdata = 0x00) ∨
       (s.d.mode = .polling ∧ rop = if s.t.eotLatched then 0x09 else 0x08)))

/-- R220 (decision D6): no command of the device stops the machine. -/
def Obligations.EveryCommandCompletes : Prop :=
  ∀ (i : Instr) (s : State), ∃ t : State, exec i s = .next t ∧ t.h = s.h ∧ t.sense = s.sense ∧
    t.hostToDevice = s.hostToDevice ∧ t.line = s.line ∧ t.script = s.script ∧ t.turns = s.turns ∧
    t.draws = s.draws ∧ t.d.phase = s.d.phase ∧ t.d.op = s.d.op

/-! ### Whole-machine rules of the device -/

/-- R28, R23: motor and fast-forward exclude each other and fast-forward is on exactly while seeking,
after every step from a state in which this holds. -/
def Obligations.MotorAndFastForwardStayExclusive : Prop :=
  ∀ s t : State, DeviceInv s → step s = .next t → DeviceInv t

/-- R29, R21 (decision D11): the track changes only by an accepted SET_TRACK on a stationary tape, or a
device reset. -/
def Obligations.TrackChangesOnlyWhileStationary : Prop :=
  ∀ s t : State, step s = .next t → t.t.track ≠ s.t.track →
    eventTurn .deviceReset s ∨
    (responderTurn s ∧ s.t.motorOn = false ∧ s.t.ffOn = false ∧
      ∃ data : Byte, frameArrives 0x01 data s ∧ data.toNat ≤ 3 ∧ t.t.track = BitVec.ofNat 2 data.toNat)

/-- R25: the sensor sets the latch; RESET_EOT and GET_STATUS with a non-zero data byte clear it; no
other step changes it but a device reset (R260). -/
def Obligations.LatchSetBySensorClearedByTwoCommands : Prop :=
  (∀ s : State, eventTurn .endOfTape s → ∃ t : State, step s = .next t ∧ t.t.eotLatched = true) ∧
  (∀ (s : State) (data : Byte), responderTurn s →
    frameArrives 0x0A data s ∨ (frameArrives 0x00 data s ∧ data ≠ 0x00) →
    ∃ t : State, step s = .next t ∧ t.t.eotLatched = false) ∧
  (∀ s t : State, step s = .next t → t.t.eotLatched ≠ s.t.eotLatched →
    eventTurn .endOfTape s ∨ eventTurn .deviceReset s ∨
    (responderTurn s ∧ ∃ data : Byte, frameArrives 0x0A data s ∨ (frameArrives 0x00 data s ∧ data ≠ 0x00)))

/-- R56, R115: bytes go out on `write_data` only by WRITE in write mode, one each. -/
def Obligations.OnlyWriteDrivesTheTape : Prop :=
  ∀ s t : State, step s = .next t →
    t.writeData = s.writeData ∨
    (responderTurn s ∧ s.t.writeEnabled = true ∧
      ∃ b : Byte, frameArrives 0x05 b s ∧ t.writeData = s.writeData ++ [b])

/-- R22, R24, R269 (decisions D12 to D16): the motor starts only by START_MOTOR or START_WRITE, and stops
only by STOP_MOTOR, by SEEK or by STOP_WRITE in write mode; write mode begins only by START_WRITE and ends
only by STOP_WRITE; a device reset apart. R226 (decisions D22, D44): a change of a sense level sets that
level and nothing else, so it stops neither, and nothing else changes a level. -/
def Obligations.MotorWriteModeAndSensesChangeOnlyByTheirCauses : Prop :=
  (∀ s t : State, step s = .next t → ¬ eventTurn .deviceReset s →
    (t.t.motorOn ≠ s.t.motorOn → responderTurn s ∧ ∃ data : Byte,
      (t.t.motorOn = true ∧ (frameArrives 0x03 data s ∨ frameArrives 0x06 data s)) ∨
      (t.t.motorOn = false ∧ (frameArrives 0x04 data s ∨ frameArrives 0x02 data s ∨
        (frameArrives 0x07 data s ∧ s.t.writeEnabled = true)))) ∧
    (t.t.writeEnabled ≠ s.t.writeEnabled → responderTurn s ∧ ∃ data : Byte,
      (t.t.writeEnabled = true ∧ frameArrives 0x06 data s ∧ s.sense.tapePresent = true ∧
        s.sense.recEnable = true) ∨
      (t.t.writeEnabled = false ∧ frameArrives 0x07 data s))) ∧
  (∀ (s : State) (level : Bool),
    (eventTurn (.tapePresent level) s →
      step s = .next { settle s with sense := { s.sense with tapePresent := level } }) ∧
    (eventTurn (.recEnable level) s →
      step s = .next { settle s with sense := { s.sense with recEnable := level } })) ∧
  (∀ s t : State, step s = .next t → t.sense ≠ s.sense →
    ∃ level : Bool, eventTurn (.tapePresent level) s ∨ eventTurn (.recEnable level) s)

/-- R56 (90_conflicts.md C9): repeating a command leaves the same registers, and a repeated START or STOP answers that
nothing changed. -/
def Obligations.RepeatedCommandsChangeNothingMore : Prop :=
  ∀ (i : Instr) (s a : State), exec i s = .next a →
    (match i with | .seek _ => False | .data _ => False | .write _ => False | _ => True) →
    ∃ b : State, exec i a = .next b ∧ b.t = a.t ∧ b.d = a.d ∧ b.writeData = a.writeData ∧
      ((match i with
        | .startMotor _ => True | .stopMotor _ => True | .startWrite _ => True | .stopWrite _ => True
        | _ => False) →
        b.deviceToHost.queue = a.deviceToHost.queue ++ [i.opcode, 0x00])

/-- R58, R231: an end-of-tape event before or after a command that does not read the latch comes to the
same. -/
def Obligations.EotEventCommutesWithOtherCommands : Prop :=
  ∀ (i : Instr) (s : State),
    (match i with | .getStatus _ => False | .write _ => False | .resetEot _ => False | _ => True) →
    exec i (eotEvent s) = mapNext eotEvent (exec i s)

/-- R60: an event before a clearing GET_STATUS is reported by it; an event after it leaves the latch set. -/
def Obligations.ClearingStatusLosesNoEvent : Prop :=
  ∀ (data : Byte) (s : State), data ≠ 0x00 →
    (∃ (a : State) (st : Byte), exec (.getStatus data) (eotEvent s) = .next a ∧
      a.deviceToHost.queue = s.deviceToHost.queue ++ [0x00, st] ∧ st.getLsbD 2 = true ∧
      a.t.eotLatched = false) ∧
    (∃ (b : State) (st : Byte), exec (.getStatus data) s = .next b ∧
      b.deviceToHost.queue = s.deviceToHost.queue ++ [0x00, st] ∧ st.getLsbD 2 = s.t.eotLatched ∧
      (eotEvent b).t.eotLatched = true)

/-- R238, R36: the two processors share nothing but the link. Neither changes the other's state, nor
reads it: the Responder's turn does the same whatever the host's state is, and the host's turn whatever
the device's is. -/
def Obligations.SidesShareOnlyTheLink : Prop :=
  (∀ s t : State, takeTurn .host s = .next t →
    t.t = s.t ∧ t.sense = s.sense ∧ t.d = s.d ∧ t.writeData = s.writeData ∧ t.draws = s.draws ∧
    s.hostToDevice.queue <+: t.hostToDevice.queue ∧ t.deviceToHost.queue <:+ s.deviceToHost.queue) ∧
  (∀ s t : State, takeTurn .responder s = .next t →
    t.h = s.h ∧ t.sense = s.sense ∧ t.line = s.line ∧ t.hostToDevice.queue <:+ s.hostToDevice.queue ∧
    s.deviceToHost.queue <+: t.deviceToHost.queue ∧
    t.hostToDevice.closed = s.hostToDevice.closed ∧ t.deviceToHost.closed = s.deviceToHost.closed) ∧
  (∀ (s : State) (h : HostState),
    takeTurn .responder { s with h := h } =
      mapNext (fun t => { t with h := h }) (takeTurn .responder s)) ∧
  (∀ (s : State) (tr : TransportState) (sense : SenseState) (d : ResponderState) (wd : List Byte) (n : Nat),
    takeTurn .host { s with t := tr, sense := sense, d := d, writeData := wd, draws := n } =
      mapNext (fun t => { t with t := tr, sense := sense, d := d, writeData := wd, draws := n })
        (takeTurn .host s))

/-! ### The Link Session -/

/-- R174, R175 (decisions D19, D35): when the second response byte arrives, `send` returns it if the
response opcode is the request's, or 9 for a DATA poll, and otherwise raises `EchoMismatch` and delivers
no data, and the program takes that error as R193 and R222 say (`takesError`); either way nothing is
outstanding afterwards. -/
def Obligations.EchoCheckAcceptsOnlyTheRequestsOpcode : Prop :=
  ∀ (s : State) (r0 r1 : Byte) (rest : List Byte),
    s.h.transfer = .recvData r0 → s.deviceToHost.closed = false → s.deviceToHost.queue = r1 :: rest →
    ∃ t : State, takeTurn .host s = .next t ∧ t.h.outstanding = false ∧ t.h.transfer = .none ∧
      t.deviceToHost.queue = rest ∧ t.h.trace = s.h.trace ++ [.response r0 r1] ∧
      ((r0 = s.h.reqOp ∨ (s.h.reqOp = 0x08 ∧ r0 = 0x09)) → ∀ op data : Byte, s.h.task = .call op data →
        t.h.task = .idle ∧ t.h.result = some (.sendReturned r0 r1)) ∧
      (¬ (r0 = s.h.reqOp ∨ (s.h.reqOp = 0x08 ∧ r0 = 0x09)) →
        takesError s.h.task (.echoMismatch s.h.reqOp r0) t.h ∧
        t.h.sink = s.h.sink ∧ t.h.echoSink = s.h.echoSink ∧ t.h.report = s.h.report)

/-- R173, R230 d (decision D30): `LinkIO` where a transmission fails or the channel ends before two
response bytes; nothing is outstanding afterwards, no data is delivered, and the program takes the error
as R193 (decision D27) and R222 say (`takesError`). That a closed channel ends the receive also with
response bytes in transit is the model's reading of R230 d (log 14). -/
def Obligations.ClosedChannelRaisesLinkIO : Prop :=
  ∀ s : State,
    (s.hostToDevice.closed = true ∧
      ((∃ b0 b1 : Byte, s.h.transfer = .sendOpcode b0 b1) ∨ ∃ b1 : Byte, s.h.transfer = .sendData b1)) ∨
    (s.deviceToHost.closed = true ∧ (s.h.transfer = .recvOpcode ∨ ∃ r0 : Byte, s.h.transfer = .recvData r0)) →
    ∃ t : State, takeTurn .host s = .next t ∧ t.h.outstanding = false ∧ t.h.transfer = .none ∧
      t.h.sink = s.h.sink ∧ t.h.echoSink = s.h.echoSink ∧ t.h.report = s.h.report ∧
      t.h.trace = s.h.trace ∧ t.hostToDevice = s.hostToDevice ∧ t.deviceToHost = s.deviceToHost ∧
      takesError s.h.task .linkIO t.h

/-- R171 (decision D25): a second `send` while one is outstanding is refused. R264, 93 I6: so is, on an
open channel, a byte of a `send` or one that a host program writes on the channel itself, once a whole
request has gone out and before both bytes of its response have been received. R230 d (decision D30): on a
closed channel no byte goes out, so the write fails and changes nothing; that the writer's frame then stands
is the model's choice (log 37), and a `send` raises `LinkIO` there (`ClosedChannelRaisesLinkIO`). After the
opcode byte alone of a host program's own frame the first byte of a `send` is that frame's data byte, the
model's reading (log 23). -/
def Obligations.SecondSendIsRefused : Prop :=
  (∀ (s : State) (op data : Byte), eventTurn (.callSend op data) s → s.h.outstanding = true →
    step s = .refused .sendWhileOutstanding) ∧
  (∀ s : State, nextTurn s = .host → s.hostToDevice.closed = false →
    ((∃ b0 b1 : Byte, s.h.transfer = .sendOpcode b0 b1) ∨ ∃ b1 : Byte, s.h.transfer = .sendData b1) →
    s.h.direct = .awaitOpcode ∨ s.h.direct = .awaitData → step s = .refused .writeWhileResponseOutstanding) ∧
  (∀ (s : State) (b : Byte), eventTurn (.directWrite b) s →
    (s.hostToDevice.closed = true → step s = .next (settle s)) ∧
    (s.hostToDevice.closed = false →
      s.h.transfer = .recvOpcode ∨ (∃ r0 : Byte, s.h.transfer = .recvData r0) ∨
        s.h.direct = .awaitOpcode ∨ s.h.direct = .awaitData →
      step s = .refused .writeWhileResponseOutstanding)) ∧
  (∀ (s : State) (b0 b1 : Byte), s.h.transfer = .sendOpcode b0 b1 → s.hostToDevice.closed = false →
    s.h.direct = .opcodeSent →
    takeTurn .host s = .next { s with
      hostToDevice := { s.hostToDevice with queue := s.hostToDevice.queue ++ [b0] }
      h := { s.h with transfer := .sendData b1, direct := .awaitOpcode } })

/-- A step is refused only for a host program that breaks R171 or R264, and the latter only where a byte
would go out on an open channel; the frame a host program has begun on the channel itself is followed as
log 23 says. -/
def Obligations.OnlyHostProtocolErrorsAreRefused : Prop :=
  ∀ (s : State) (r : Refusal), HostInv s.h → step s = .refused r →
    (r = .sendWhileOutstanding ∧ s.h.outstanding = true ∧
      ∃ op data : Byte, eventTurn (.callSend op data) s) ∨
    (r = .writeWhileResponseOutstanding ∧ s.hostToDevice.closed = false ∧
      (((s.h.direct = .awaitOpcode ∨ s.h.direct = .awaitData) ∧ nextTurn s = .host ∧
          ((∃ b0 b1 : Byte, s.h.transfer = .sendOpcode b0 b1) ∨ ∃ b1 : Byte, s.h.transfer = .sendData b1)) ∨
       ((s.h.direct = .awaitOpcode ∨ s.h.direct = .awaitData ∨ s.h.transfer = .recvOpcode ∨
            ∃ r0 : Byte, s.h.transfer = .recvData r0) ∧
          ∃ b : Byte, eventTurn (.directWrite b) s)))

/-- R177 (decision D24): with the channel open and no byte on it, a `send` that waits for its response
goes on waiting. R195, R271 c (decision D29): the host's timed waits end in the host's turn, and in no
other but the start of another host process, which drops the program (the model's choice, log 35). That a
blocked turn is a stutter is the model's reading (log 3). -/
def Obligations.ReceiveHasNoTimeout : Prop :=
  (∀ s : State, s.deviceToHost.closed = false → s.deviceToHost.queue = [] →
    (s.h.transfer = .recvOpcode ∨ ∃ r0 : Byte, s.h.transfer = .recvData r0) →
    takeTurn .host s = .next s) ∧
  (∀ s : State, s.h.transfer = .none →
    (s.h.task = .readWait → takeTurn .host s = .next { s with h := { s.h with task := .readTop } }) ∧
    (s.h.task = .writeSettle → takeTurn .host s = .next { s with h := { s.h with task := .writeTop } })) ∧
  (∀ s t : State, s.h.task = .readWait ∨ s.h.task = .writeSettle → step s = .next t →
    nextTurn s ≠ .host → ¬ eventTurn .processStart s → t.h.task = s.h.task)

/-- R178: a cancellation changes the cancellation level only, and a `send` in progress goes on the same
whatever that level is. -/
def Obligations.CancellationCannotInterruptSend : Prop :=
  (∀ s : State, eventTurn .cancel s →
    step s = .next { settle s with h := { s.h with cancel := true } }) ∧
  (∀ (s : State) (c : Bool), s.h.transfer ≠ .none →
    takeTurn .host { s with h := { s.h with cancel := c } } =
      mapNext (fun t => { t with h := { t.h with cancel := c } }) (takeTurn .host s))

/-- R33, R172: a request is outstanding exactly while `send` is in progress, and it is the one the
program's control point names; every step keeps this. -/
def Obligations.OutstandingRequestMatchesProgram : Prop :=
  ∀ s t : State, HostInv s.h → step s = .next t → HostInv t.h

/-- R170, R172, R95 (decision D24): on a quiet link, under the turns of one exchange, a call of `send` with
a command that answers in one step returns that command's response, with the device in the state the
command leaves; and a SEEK, whose positioning ends in between (decision D12), returns `(0x02, 0x00)` with
motor and fast-forward off. -/
def Obligations.SendReturnsTheCommandsResponse : Prop :=
  (∀ (s : State) (op data : Byte) (i : Instr),
    Quiet s → op ≠ 0x02 → op ≠ 0x08 → decode [op, data] = .ok i →
    s.script = [.event (.callSend op data), .host, .responder, .host, .responder, .host, .host] →
    ∃ (t e : State) (rdata : Byte), Sys2Proof.core.run 7 s = .next t ∧ exec i s = .next e ∧
      e.deviceToHost.queue = [op, rdata] ∧ t.t = e.t ∧ t.writeData = e.writeData ∧
      t.h.result = some (.sendReturned op rdata) ∧ t.h.trace = s.h.trace ++ [.request op data, .response op rdata] ∧
      Quiet t) ∧
  (∀ (s : State) (data : Byte),
    Quiet s →
    s.script = [.event (.callSend 0x02 data), .host, .responder, .host, .responder, .event .seekDone,
      .host, .host] →
    ∃ t : State, Sys2Proof.core.run 8 s = .next t ∧ t.t = { s.t with motorOn := false, ffOn := false } ∧
      t.writeData = s.writeData ∧ t.h.result = some (.sendReturned 0x02 0x00) ∧
      t.h.trace = s.h.trace ++ [.request 0x02 data, .response 0x02 0x00] ∧ Quiet t)

/-- R150, R151, R174: a DATA poll that is presented a byte returns that byte, as DATA or DATA_EOT. -/
def Obligations.PollReturnsThePresentedByte : Prop :=
  ∀ (s : State) (data b : Byte),
    Quiet s →
    s.script = [.event (.callSend 0x08 data), .host, .responder, .host, .responder, .event (.readByte b), .host, .host] →
    ∃ t : State, Sys2Proof.core.run 8 s = .next t ∧ t.t = s.t ∧ Quiet t ∧
      t.h.result = some (.sendReturned (if s.t.eotLatched then 0x09 else 0x08) b)

/-- R230, R57, R174: every step whose turn brings no link fault and disturbs nothing keeps one frame in
flight, the device executes the frame the host sent, and no response fails the echo check. -/
def Obligations.ReliableLinkKeepsOneFrameInFlight : Prop :=
  ∀ s t : State, LinkInv s → faultFree (nextTurn s) = true → undisturbing (nextTurn s) = true →
    step s = .next t → LinkInv t

/-- The state after reset meets every invariant stated here: of the device, of the host, of the link and
of the loops' cleanup. That the wire is empty and open and no program runs at reset is the model's choice
(log 8, log 9). -/
def Obligations.ResetMeetsEveryInvariant : Prop :=
  DeviceInv State.reset ∧ HostInv State.reset.h ∧ LinkInv State.reset ∧ CleanupInv State.reset.h

/-- R230 (decision D30): along every run from reset on a reliable link that nothing disturbs, whatever
programs it starts, no `LinkIO` and no `EchoMismatch` is ever raised. It rests on the model's choice that
the wire is empty and open at reset (log 9). -/
def Obligations.ReliableRunsRaiseNoLinkError : Prop :=
  ∀ (script : List Turn) (k : Nat) (t : State),
    LinkReliable k { State.reset with script := script } →
    Undisturbed k { State.reset with script := script } →
    Sys2Proof.core.run k { State.reset with script := script } = .next t →
    ∀ e : HostError, t.h.result = some (.raised e) → e ≠ .linkIO ∧ ∀ x y : Byte, e ≠ .echoMismatch x y

/-! ### The reference host programs -/

/-- R191, R192 (decision D26): the tape check is GET_STATUS with `P_CLEAR_DATA`. With no tape the loop
fails with `NoTape` and sends nothing more; with a tape it goes on to its start command, START_MOTOR or
START_WRITE, whose result byte it does not check. -/
def Obligations.TapeCheckFailsBeforeAnyMotion : Prop :=
  (∀ s : State, betweenSends s →
    (s.h.task = .readCheck ∨ s.h.task = .writeCheck → takeTurn .host s = .next (requesting 0x00 0x01 s)) ∧
    (s.h.task = .readStart → takeTurn .host s = .next (requesting 0x03 0x00 s)) ∧
    (s.h.task = .writeStart → takeTurn .host s = .next (requesting 0x06 0x00 s))) ∧
  (∀ (s : State) (st : Byte) (rest : List Byte),
    s.h.task = .readCheck ∨ s.h.task = .writeCheck →
    s.h.transfer = .recvData 0x00 → s.h.reqOp = 0x00 →
    s.deviceToHost.closed = false → s.deviceToHost.queue = st :: rest →
    ∃ t : State, takeTurn .host s = .next t ∧ t.hostToDevice = s.hostToDevice ∧ t.h.outstanding = false ∧
      (st.getLsbD 3 = false → t.h.task = .idle ∧ t.h.result = some (.raised .noTape)) ∧
      (st.getLsbD 3 = true → t.h.result = s.h.result ∧
        (s.h.task = .readCheck → t.h.task = .readStart) ∧ (s.h.task = .writeCheck → t.h.task = .writeStart))) ∧
  (∀ (s : State) (r : Byte) (rest : List Byte),
    s.h.transfer = .recvData s.h.reqOp → s.deviceToHost.closed = false → s.deviceToHost.queue = r :: rest →
    (s.h.task = .readStart → ∃ t : State, takeTurn .host s = .next t ∧ t.h.task = .readTop) ∧
    (s.h.task = .writeStart → ∃ t : State, takeTurn .host s = .next t ∧ t.h.task = .writeSettle))

/-- R191: the read loop's poll is `[08 00]`; a polled byte is delivered on DATA and on DATA_EOT, and only
DATA_EOT ends the loop. -/
def Obligations.ReadLoopDeliversEveryPolledByte : Prop :=
  (∀ s : State, betweenSends s → s.h.task = .readPoll →
    takeTurn .host s = .next (requesting 0x08 0x00 s)) ∧
  (∀ (s : State) (rop b : Byte) (rest : List Byte),
    s.h.task = .readPoll → s.h.transfer = .recvData rop → s.h.reqOp = 0x08 → rop = 0x08 ∨ rop = 0x09 →
    s.deviceToHost.closed = false → s.deviceToHost.queue = b :: rest →
    ∃ t : State, takeTurn .host s = .next t ∧ t.h.sink = s.h.sink ++ [b] ∧
      t.h.task = if rop = 0x09 then .readCleanup (.ended .normal) else .readWait)

/-- R192, R196 (decisions D8, D36): the write loop sends WRITE with the byte it has read; the byte is echoed
after its response, if echo is configured, and any non-zero result ends the loop. -/
def Obligations.WriteLoopEchoesAndStopsAtEndOfTape : Prop :=
  (∀ (s : State) (b : Byte), betweenSends s → s.h.task = .writeByte b →
    takeTurn .host s = .next (requesting 0x05 b s)) ∧
  (∀ (s : State) (b e : Byte) (rest : List Byte),
    s.h.task = .writeByte b → s.h.transfer = .recvData 0x05 → s.h.reqOp = 0x05 →
    s.deviceToHost.closed = false → s.deviceToHost.queue = e :: rest →
    ∃ t : State, takeTurn .host s = .next t ∧ t.h.source = s.h.source ∧
      t.h.echoSink = (if s.h.echo then s.h.echoSink ++ [b] else s.h.echoSink) ∧
      t.h.task = if e = 0x00 then .writeTop else .writeCleanup (.ended .endOfTape))

/-- R194 (decision D34): at the top of an iteration a cancelled loop goes to its cleanup and sends no
further frame; otherwise it goes on. The cleanup sends STOP_MOTOR or STOP_WRITE, however the loop is
ending (R193). -/
def Obligations.CancelledLoopGoesToCleanup : Prop :=
  (∀ s : State, s.h.transfer = .none →
    (s.h.task = .readTop →
      takeTurn .host s = .next { s with h := { s.h with
        task := if s.h.cancel then .readCleanup (.ended .cancelled) else .readPoll } }) ∧
    (s.h.task = .writeTop → s.h.cancel = true →
      takeTurn .host s = .next { s with h := { s.h with task := .writeCleanup (.ended .cancelled) } }) ∧
    (s.h.task = .writeTop → s.h.cancel = false → s.h.source = [] →
      takeTurn .host s = .next { s with h := { s.h with task := .writeCleanup (.ended .exhausted) } }) ∧
    (∀ (b : Byte) (rest : List Byte), s.h.task = .writeTop → s.h.cancel = false → s.h.source = b :: rest →
      takeTurn .host s = .next { s with h := { s.h with task := .writeByte b, source := rest } })) ∧
  (∀ (s : State) (e : LoopExit), betweenSends s →
    (s.h.task = .readCleanup e → takeTurn .host s = .next (requesting 0x04 0x00 s)) ∧
    (s.h.task = .writeCleanup e → takeTurn .host s = .next (requesting 0x07 0x00 s)))

/-- R193, R222: once its start command is being sent, a loop is left only through its cleanup, and a
cleanup only by the end of its own `send`; a new host process apart, which drops it (the model's choice,
log 35). -/
def Obligations.LoopIsLeftOnlyThroughCleanup : Prop :=
  ∀ s t : State, HostInv s.h → step s = .next t → ¬ eventTurn .processStart s →
    (inReadTry s.h.task → inReadTry t.h.task ∨ ∃ e : LoopExit, t.h.task = .readCleanup e) ∧
    (inWriteTry s.h.task → inWriteTry t.h.task ∨ ∃ e : LoopExit, t.h.task = .writeCleanup e) ∧
    (∀ e : LoopExit, s.h.task = .readCleanup e → t.h.task = .readCleanup e ∨
      (t.h.task = .idle ∧ s.h.reqOp = 0x04 ∧ s.h.outstanding = true ∧ t.h.outstanding = false)) ∧
    (∀ e : LoopExit, s.h.task = .writeCleanup e → t.h.task = .writeCleanup e ∨
      (t.h.task = .idle ∧ s.h.reqOp = 0x07 ∧ s.h.outstanding = true ∧ t.h.outstanding = false))

/-- R193 (decision D27): a loop that ends normally has transmitted exactly one cleanup frame; every step
keeps the count. -/
def Obligations.EndedLoopHasSentOneCleanup : Prop :=
  (∀ s t : State, CleanupInv s.h → step s = .next t → CleanupInv t.h) ∧
  (∀ (h : HostState) (r : LoopResult), CleanupInv h → h.task = .idle → h.result = some (.loopEnded r) →
    cleanups h = 1)

/-- R193, R232 (decision D27): the error a loop is already raising wins over its cleanup's own; a loop
that was ending normally reports the cleanup's error. The cleanup's error is `LinkIO` from either
transmitted byte or either response byte (R173, R230 d, decision D30), or `EchoMismatch` from its response
(R174, R175). That a closed channel ends the receive also with response bytes in transit is the model's
reading of R230 d (log 14). -/
def Obligations.FirstErrorWinsOverCleanupError : Prop :=
  ∀ (s : State) (p : LoopExit), s.h.task = .readCleanup p ∨ s.h.task = .writeCleanup p →
    (∀ (r0 r1 : Byte) (rest : List Byte), s.h.transfer = .recvData r0 →
      s.deviceToHost.closed = false → s.deviceToHost.queue = r1 :: rest →
      ∃ t : State, takeTurn .host s = .next t ∧ t.h.task = .idle ∧
        (r0 = s.h.reqOp → t.h.result = some p.result) ∧
        (r0 ≠ s.h.reqOp → s.h.reqOp ≠ 0x08 →
          t.h.result = some (.raised (match p with
            | .ended _ => .echoMismatch s.h.reqOp r0
            | .raised e => e)))) ∧
    ((s.hostToDevice.closed = true ∧
        ((∃ b0 b1 : Byte, s.h.transfer = .sendOpcode b0 b1) ∨ ∃ b1 : Byte, s.h.transfer = .sendData b1)) ∨
     (s.deviceToHost.closed = true ∧
        (s.h.transfer = .recvOpcode ∨ ∃ r0 : Byte, s.h.transfer = .recvData r0)) →
      ∃ t : State, takeTurn .host s = .next t ∧ t.h.task = .idle ∧
        t.h.result = some (.raised (match p with
          | .ended _ => .linkIO
          | .raised e => e)))

/-- R198 (decision D39): an unsupported rate, a track outside 1 to 4 or both modes together is
`InvalidArgument` before the link is opened, with no frame sent; any other command line goes on to open
the link at the rate it names. A command line that does not parse ends as a syntax error (R199); that it
too ends before the link is opened is the model's reading (log 32). -/
def Obligations.InvalidArgumentBeforeTheLinkOpens : Prop :=
  (∀ (s : State) (args : Args) (stdin : List Byte),
    eventTurn (.launch (.commandLine args stdin)) s → s.h.task = .idle →
    ∃ t : State, step s = .next t ∧ t.hostToDevice = (settle s).hostToDevice ∧
      t.deviceToHost = (settle s).deviceToHost ∧ t.line = (settle s).line ∧
      t.h.transfer = s.h.transfer ∧ t.h.trace = [] ∧
      (let good : Prop := args.baudRate ∈ [4800, 9600, 19200, 38400, 57600, 115200] ∧
          (∀ k : Nat, args.track = some k → 1 ≤ k ∧ k ≤ 4) ∧ ¬ (args.read = true ∧ args.write = true)
       (good → (∃ rate : Config.LineRate, rate.value = args.baudRate ∧ t.h.task = .openLink rate args) ∧
          t.h.result = none ∧ t.h.source = stdin ∧ t.h.echo = args.echo) ∧
       (¬ good → t.h.task = .idle ∧
          ∃ which : BadArgument, t.h.result = some (.raised (.invalidArgument which))))) ∧
  (∀ s : State, eventTurn (.launch .unparsed) s → s.h.task = .idle →
    ∃ t : State, step s = .next t ∧ t.hostToDevice = (settle s).hostToDevice ∧
      t.deviceToHost = (settle s).deviceToHost ∧ t.line = (settle s).line ∧ t.h.trace = [] ∧
      t.h.task = .idle ∧ t.h.result = some .syntaxError)

/-- R197, R81, R200 (decisions D38, D42, D47): the command line opens the link at the rate named, then, each
only if requested, sends SET_TRACK with its track counted from 0, SEEK and GET_STATUS 0x00, in this order,
goes on whatever track comes back, reports the status, and runs the loop requested. That opening the link
never fails is the model's choice (log 38). -/
def Obligations.CommandLineSendsItsFramesInOrder : Prop :=
  (∀ (s : State) (args : Args), betweenSends s →
    (∀ rate : Config.LineRate, s.h.task = .openLink rate args →
      ∃ t : State, takeTurn .host s = .next t ∧ t.line.rate = .chosen rate ∧
        t.hostToDevice.closed = false ∧ t.deviceToHost.closed = false ∧ t.h.task = .track args ∧
        t.h.outstanding = false ∧ t.h.transfer = .none ∧ t.h.trace = s.h.trace) ∧
    (∀ k : Nat, s.h.task = .track args → args.track = some k →
      takeTurn .host s = .next (requesting 0x01 (BitVec.ofNat 8 (k - 1)) s)) ∧
    (s.h.task = .track args → args.track = none →
      takeTurn .host s = .next { s with h := { s.h with task := .seek args } }) ∧
    (s.h.task = .seek args → takeTurn .host s =
      .next (if args.seek then requesting 0x02 0x00 s else { s with h := { s.h with task := .status args } })) ∧
    (s.h.task = .status args → takeTurn .host s =
      .next (if args.status then requesting 0x00 0x00 s else { s with h := { s.h with task := .modes args } })) ∧
    (s.h.task = .modes args → takeTurn .host s =
      .next { s with h :=
        if args.read then { s.h with task := .readCheck }
        else if args.write then { s.h with task := .writeCheck }
        else { s.h with task := .idle, result := some .toolDone } })) ∧
  (∀ (s : State) (args : Args) (r : Byte) (rest : List Byte),
    s.h.transfer = .recvData s.h.reqOp → s.deviceToHost.closed = false → s.deviceToHost.queue = r :: rest →
    ∃ t : State, takeTurn .host s = .next t ∧
      (s.h.task = .track args → t.h.task = .seek args) ∧
      (s.h.task = .seek args → t.h.task = .status args) ∧
      (s.h.task = .status args → t.h.task = .modes args ∧
        t.h.report = some { track := (r.extractLsb' 0 2).toNat + 1, tapePresent := r.getLsbD 3,
                            endOfTape := r.getLsbD 2 }))

/-- R199, R6 (decision D28): the exit codes; a syntax error exits as `InvalidArgument` does, and the three
OPEN codes are distinct from each other and from 0. -/
def Obligations.ExitCodesAreDistinct : Prop :=
  (∀ r : LoopResult, exitCode (.loopEnded r) = 0) ∧ exitCode .toolDone = 0 ∧
  (∀ x y : Byte, exitCode (.raised (.echoMismatch x y)) = exitCode (.raised .linkIO)) ∧
  exitCode (.raised .linkIO) ≠ 0 ∧
  (∀ w : BadArgument, exitCode (.raised (.invalidArgument w)) = exitCode .syntaxError) ∧
  exitCode .syntaxError ≠ 0 ∧ exitCode .syntaxError ≠ exitCode (.raised .linkIO) ∧
  exitCode .syntaxError ≠ exitCode (.raised .noTape) ∧
  exitCode (.raised .noTape) ≠ 0 ∧ exitCode (.raised .noTape) ≠ exitCode (.raised .linkIO)
end

