-- ==== Sys2Proof/Laws/Decode.lean ====
section
/-! SUPPORT. What the decoder reads: every opcode byte selects one row, and which one. -/

namespace Sys2Proof.Laws

/-- Every opcode byte selects a row (R78). -/
theorem rowOf_isSome : ∀ op : Byte, (rowOf op).isSome = true := by decide

/-- No two rows of the table fit one opcode byte (R82). -/
theorem rows_do_not_overlap :
    ∀ op : Byte, opcodeTable.Pairwise (fun r r' => ¬ (r.fits op = true ∧ r'.fits op = true)) := by
  decide

/-- The row of a reserved opcode, by the ranges of R82. -/
theorem rowOf_reserved0C0F : ∀ op : Byte, opcodeIn 0x0C 0x0F op = true → rowOf op = some .reserved0C0F := by
  decide
theorem rowOf_reserved101F : ∀ op : Byte, opcodeIn 0x10 0x1F op = true → rowOf op = some .reserved101F := by
  decide
theorem rowOf_reserved203F : ∀ op : Byte, opcodeIn 0x20 0x3F op = true → rowOf op = some .reserved203F := by
  decide
theorem rowOf_reserved407F : ∀ op : Byte, opcodeIn 0x40 0x7F op = true → rowOf op = some .reserved407F := by
  decide
theorem rowOf_reserved80FF : ∀ op : Byte, opcodeIn 0x80 0xFF op = true → rowOf op = some .reserved80FF := by
  decide

/-- The decoder on two bytes, given the row. -/
theorem decode_of_row {op : Byte} {r : Row} (data : Byte) (h : rowOf op = some r) :
    decode [op, data] = .ok (instrOfRow r op data) := by
  simp [decode, codecDecode, h]

/-- The decoder refuses nothing of two bytes (R78). -/
theorem decode_total (op data : Byte) : ∃ r, rowOf op = some r ∧ decode [op, data] = .ok (instrOfRow r op data) := by
  obtain ⟨r, hr⟩ := Option.isSome_iff_exists.mp (rowOf_isSome op)
  exact ⟨r, hr, decode_of_row data hr⟩

/-- Where the decoder answers, the input was two bytes and the opcode's row made the instruction. -/
theorem decode_ok {bytes : List Byte} {i : Instr} (h : decode bytes = .ok i) :
    ∃ op data r, bytes = [op, data] ∧ rowOf op = some r ∧ i = instrOfRow r op data := by
  match bytes, h with
  | [], h => simp [decode, codecDecode] at h
  | [_], h => simp [decode, codecDecode] at h
  | [op, data], h =>
    obtain ⟨r, hr, hd⟩ := decode_total op data
    exact ⟨op, data, r, rfl, hr, by rw [hd] at h; exact (Except.ok.inj h).symm⟩
  | _ :: _ :: _ :: _, h => simp [decode, codecDecode] at h

/-- An opcode byte that selects a row with a fixed opcode is that opcode. -/
theorem opcode_of_rowOf : ∀ op data : Byte, ∀ r, rowOf op = some r → (instrOfRow r op data).opcode = op := by
  have key : ∀ op : Byte, ∀ r, rowOf op = some r → (instrOfRow r op 0).opcode = op := by
    intro op
    have h : ∀ op : Byte, ((rowOf op).all fun r => decide ((instrOfRow r op 0).opcode = op)) = true := by
      decide
    intro r hr
    simpa [hr] using h op
  intro op data r hr
  rw [← key op r hr]
  cases r <;> simp [instrOfRow, Instr.opcode]

end Sys2Proof.Laws
end

