-- ==== Sys2Proof/Laws/State.lean ====
section
/-! SUPPORT. One lemma per field of State per named update, true by `rfl`, so that no later proof
unfolds a record update. -/

namespace Sys2Proof.Laws

open Sys2Proof.Machine

@[simp] theorem pushByte_queue (b : Byte) (c : Channel) : (pushByte b c).queue = c.queue ++ [b] := rfl
@[simp] theorem pushByte_closed (b : Byte) (c : Channel) : (pushByte b c).closed = c.closed := rfl

@[simp] theorem sendByte_t (b : Byte) (s : State) : (sendByte b s).t = s.t := rfl
@[simp] theorem sendByte_sense (b : Byte) (s : State) : (sendByte b s).sense = s.sense := rfl
@[simp] theorem sendByte_d (b : Byte) (s : State) : (sendByte b s).d = s.d := rfl
@[simp] theorem sendByte_hostToDevice (b : Byte) (s : State) : (sendByte b s).hostToDevice = s.hostToDevice := rfl
@[simp] theorem sendByte_deviceToHost (b : Byte) (s : State) : (sendByte b s).deviceToHost = pushByte b s.deviceToHost := rfl
@[simp] theorem sendByte_writeData (b : Byte) (s : State) : (sendByte b s).writeData = s.writeData := rfl
@[simp] theorem sendByte_h (b : Byte) (s : State) : (sendByte b s).h = s.h := rfl
@[simp] theorem sendByte_draws (b : Byte) (s : State) : (sendByte b s).draws = s.draws := rfl
@[simp] theorem sendByte_script (b : Byte) (s : State) : (sendByte b s).script = s.script := rfl

@[simp] theorem respond_t (rop rdata : Byte) (s : State) : (respond rop rdata s).t = s.t := rfl
@[simp] theorem respond_sense (rop rdata : Byte) (s : State) : (respond rop rdata s).sense = s.sense := rfl
@[simp] theorem respond_d (rop rdata : Byte) (s : State) : (respond rop rdata s).d = s.d := rfl
@[simp] theorem respond_hostToDevice (rop rdata : Byte) (s : State) : (respond rop rdata s).hostToDevice = s.hostToDevice := rfl
@[simp] theorem respond_deviceToHost (rop rdata : Byte) (s : State) : (respond rop rdata s).deviceToHost = pushByte rdata (pushByte rop s.deviceToHost) := rfl
@[simp] theorem respond_writeData (rop rdata : Byte) (s : State) : (respond rop rdata s).writeData = s.writeData := rfl
@[simp] theorem respond_h (rop rdata : Byte) (s : State) : (respond rop rdata s).h = s.h := rfl
@[simp] theorem respond_draws (rop rdata : Byte) (s : State) : (respond rop rdata s).draws = s.draws := rfl
@[simp] theorem respond_script (rop rdata : Byte) (s : State) : (respond rop rdata s).script = s.script := rfl

@[simp] theorem writeChannel_t (b : Byte) (s : State) : (writeChannel b s).t = s.t := rfl
@[simp] theorem writeChannel_sense (b : Byte) (s : State) : (writeChannel b s).sense = s.sense := rfl
@[simp] theorem writeChannel_d (b : Byte) (s : State) : (writeChannel b s).d = s.d := rfl
@[simp] theorem writeChannel_hostToDevice (b : Byte) (s : State) : (writeChannel b s).hostToDevice = s.hostToDevice := rfl
@[simp] theorem writeChannel_deviceToHost (b : Byte) (s : State) : (writeChannel b s).deviceToHost = s.deviceToHost := rfl
@[simp] theorem writeChannel_writeData (b : Byte) (s : State) : (writeChannel b s).writeData = s.writeData ++ [b] := rfl
@[simp] theorem writeChannel_h (b : Byte) (s : State) : (writeChannel b s).h = s.h := rfl
@[simp] theorem writeChannel_draws (b : Byte) (s : State) : (writeChannel b s).draws = s.draws := rfl
@[simp] theorem writeChannel_script (b : Byte) (s : State) : (writeChannel b s).script = s.script := rfl

@[simp] theorem setTransport_t (t : TransportState) (s : State) : (setTransport t s).t = t := rfl
@[simp] theorem setTransport_sense (t : TransportState) (s : State) : (setTransport t s).sense = s.sense := rfl
@[simp] theorem setTransport_d (t : TransportState) (s : State) : (setTransport t s).d = s.d := rfl
@[simp] theorem setTransport_hostToDevice (t : TransportState) (s : State) : (setTransport t s).hostToDevice = s.hostToDevice := rfl
@[simp] theorem setTransport_deviceToHost (t : TransportState) (s : State) : (setTransport t s).deviceToHost = s.deviceToHost := rfl
@[simp] theorem setTransport_writeData (t : TransportState) (s : State) : (setTransport t s).writeData = s.writeData := rfl
@[simp] theorem setTransport_h (t : TransportState) (s : State) : (setTransport t s).h = s.h := rfl
@[simp] theorem setTransport_draws (t : TransportState) (s : State) : (setTransport t s).draws = s.draws := rfl
@[simp] theorem setTransport_script (t : TransportState) (s : State) : (setTransport t s).script = s.script := rfl

@[simp] theorem setMode_t (m : Mode) (s : State) : (setMode m s).t = s.t := rfl
@[simp] theorem setMode_sense (m : Mode) (s : State) : (setMode m s).sense = s.sense := rfl
@[simp] theorem setMode_d (m : Mode) (s : State) : (setMode m s).d = { s.d with mode := m } := rfl
@[simp] theorem setMode_hostToDevice (m : Mode) (s : State) : (setMode m s).hostToDevice = s.hostToDevice := rfl
@[simp] theorem setMode_deviceToHost (m : Mode) (s : State) : (setMode m s).deviceToHost = s.deviceToHost := rfl
@[simp] theorem setMode_writeData (m : Mode) (s : State) : (setMode m s).writeData = s.writeData := rfl
@[simp] theorem setMode_h (m : Mode) (s : State) : (setMode m s).h = s.h := rfl
@[simp] theorem setMode_draws (m : Mode) (s : State) : (setMode m s).draws = s.draws := rfl
@[simp] theorem setMode_script (m : Mode) (s : State) : (setMode m s).script = s.script := rfl

@[simp] theorem clearLatch_t (s : State) : (clearLatch s).t = { s.t with eotLatched := false } := rfl
@[simp] theorem clearLatch_sense (s : State) : (clearLatch s).sense = s.sense := rfl
@[simp] theorem clearLatch_d (s : State) : (clearLatch s).d = s.d := rfl
@[simp] theorem clearLatch_hostToDevice (s : State) : (clearLatch s).hostToDevice = s.hostToDevice := rfl
@[simp] theorem clearLatch_deviceToHost (s : State) : (clearLatch s).deviceToHost = s.deviceToHost := rfl
@[simp] theorem clearLatch_writeData (s : State) : (clearLatch s).writeData = s.writeData := rfl
@[simp] theorem clearLatch_h (s : State) : (clearLatch s).h = s.h := rfl
@[simp] theorem clearLatch_draws (s : State) : (clearLatch s).draws = s.draws := rfl
@[simp] theorem clearLatch_script (s : State) : (clearLatch s).script = s.script := rfl

@[simp] theorem eotEvent_t (s : State) : (eotEvent s).t = { s.t with eotLatched := true } := rfl
@[simp] theorem eotEvent_sense (s : State) : (eotEvent s).sense = s.sense := rfl
@[simp] theorem eotEvent_d (s : State) : (eotEvent s).d = s.d := rfl
@[simp] theorem eotEvent_hostToDevice (s : State) : (eotEvent s).hostToDevice = s.hostToDevice := rfl
@[simp] theorem eotEvent_deviceToHost (s : State) : (eotEvent s).deviceToHost = s.deviceToHost := rfl
@[simp] theorem eotEvent_writeData (s : State) : (eotEvent s).writeData = s.writeData := rfl
@[simp] theorem eotEvent_h (s : State) : (eotEvent s).h = s.h := rfl
@[simp] theorem eotEvent_draws (s : State) : (eotEvent s).draws = s.draws := rfl
@[simp] theorem eotEvent_script (s : State) : (eotEvent s).script = s.script := rfl

@[simp] theorem resetDevice_t (s : State) : (resetDevice s).t = TransportState.reset := rfl
@[simp] theorem resetDevice_sense (s : State) : (resetDevice s).sense = s.sense := rfl
@[simp] theorem resetDevice_d (s : State) : (resetDevice s).d = ResponderState.reset := rfl
@[simp] theorem resetDevice_hostToDevice (s : State) : (resetDevice s).hostToDevice = s.hostToDevice := rfl
@[simp] theorem resetDevice_deviceToHost (s : State) : (resetDevice s).deviceToHost = s.deviceToHost := rfl
@[simp] theorem resetDevice_writeData (s : State) : (resetDevice s).writeData = s.writeData := rfl
@[simp] theorem resetDevice_h (s : State) : (resetDevice s).h = s.h := rfl
@[simp] theorem resetDevice_draws (s : State) : (resetDevice s).draws = s.draws := rfl
@[simp] theorem resetDevice_script (s : State) : (resetDevice s).script = s.script := rfl

@[simp] theorem setHost_t (h : HostState) (s : State) : (setHost h s).t = s.t := rfl
@[simp] theorem setHost_sense (h : HostState) (s : State) : (setHost h s).sense = s.sense := rfl
@[simp] theorem setHost_d (h : HostState) (s : State) : (setHost h s).d = s.d := rfl
@[simp] theorem setHost_hostToDevice (h : HostState) (s : State) : (setHost h s).hostToDevice = s.hostToDevice := rfl
@[simp] theorem setHost_deviceToHost (h : HostState) (s : State) : (setHost h s).deviceToHost = s.deviceToHost := rfl
@[simp] theorem setHost_writeData (h : HostState) (s : State) : (setHost h s).writeData = s.writeData := rfl
@[simp] theorem setHost_h (h : HostState) (s : State) : (setHost h s).h = h := rfl
@[simp] theorem setHost_draws (h : HostState) (s : State) : (setHost h s).draws = s.draws := rfl
@[simp] theorem setHost_script (h : HostState) (s : State) : (setHost h s).script = s.script := rfl

@[simp] theorem goTo_t (task : Task) (s : State) : (goTo task s).t = s.t := rfl
@[simp] theorem goTo_sense (task : Task) (s : State) : (goTo task s).sense = s.sense := rfl
@[simp] theorem goTo_d (task : Task) (s : State) : (goTo task s).d = s.d := rfl
@[simp] theorem goTo_hostToDevice (task : Task) (s : State) : (goTo task s).hostToDevice = s.hostToDevice := rfl
@[simp] theorem goTo_deviceToHost (task : Task) (s : State) : (goTo task s).deviceToHost = s.deviceToHost := rfl
@[simp] theorem goTo_writeData (task : Task) (s : State) : (goTo task s).writeData = s.writeData := rfl
@[simp] theorem goTo_h (task : Task) (s : State) : (goTo task s).h = { s.h with task := task } := rfl
@[simp] theorem goTo_draws (task : Task) (s : State) : (goTo task s).draws = s.draws := rfl
@[simp] theorem goTo_script (task : Task) (s : State) : (goTo task s).script = s.script := rfl

@[simp] theorem finish_t (r : RunResult) (s : State) : (finish r s).t = s.t := rfl
@[simp] theorem finish_sense (r : RunResult) (s : State) : (finish r s).sense = s.sense := rfl
@[simp] theorem finish_d (r : RunResult) (s : State) : (finish r s).d = s.d := rfl
@[simp] theorem finish_hostToDevice (r : RunResult) (s : State) : (finish r s).hostToDevice = s.hostToDevice := rfl
@[simp] theorem finish_deviceToHost (r : RunResult) (s : State) : (finish r s).deviceToHost = s.deviceToHost := rfl
@[simp] theorem finish_writeData (r : RunResult) (s : State) : (finish r s).writeData = s.writeData := rfl
@[simp] theorem finish_h (r : RunResult) (s : State) : (finish r s).h = { s.h with task := .idle, result := some r } := rfl
@[simp] theorem finish_draws (r : RunResult) (s : State) : (finish r s).draws = s.draws := rfl
@[simp] theorem finish_script (r : RunResult) (s : State) : (finish r s).script = s.script := rfl

@[simp] theorem record_t (f : FrameRecord) (s : State) : (record f s).t = s.t := rfl
@[simp] theorem record_sense (f : FrameRecord) (s : State) : (record f s).sense = s.sense := rfl
@[simp] theorem record_d (f : FrameRecord) (s : State) : (record f s).d = s.d := rfl
@[simp] theorem record_hostToDevice (f : FrameRecord) (s : State) : (record f s).hostToDevice = s.hostToDevice := rfl
@[simp] theorem record_deviceToHost (f : FrameRecord) (s : State) : (record f s).deviceToHost = s.deviceToHost := rfl
@[simp] theorem record_writeData (f : FrameRecord) (s : State) : (record f s).writeData = s.writeData := rfl
@[simp] theorem record_h (f : FrameRecord) (s : State) : (record f s).h = { s.h with trace := s.h.trace ++ [f] } := rfl
@[simp] theorem record_draws (f : FrameRecord) (s : State) : (record f s).draws = s.draws := rfl
@[simp] theorem record_script (f : FrameRecord) (s : State) : (record f s).script = s.script := rfl

@[simp] theorem seekDone_t (s : State) : (seekDone s).t = { s.t with ffOn := false } := rfl
@[simp] theorem seekDone_sense (s : State) : (seekDone s).sense = s.sense := rfl
@[simp] theorem seekDone_d (s : State) : (seekDone s).d = { s.d with mode := .idle } := rfl
@[simp] theorem seekDone_hostToDevice (s : State) : (seekDone s).hostToDevice = s.hostToDevice := rfl
@[simp] theorem seekDone_deviceToHost (s : State) : (seekDone s).deviceToHost = pushByte Config.seekAck (pushByte Config.opSeek s.deviceToHost) := rfl
@[simp] theorem seekDone_writeData (s : State) : (seekDone s).writeData = s.writeData := rfl
@[simp] theorem seekDone_h (s : State) : (seekDone s).h = s.h := rfl
@[simp] theorem seekDone_draws (s : State) : (seekDone s).draws = s.draws := rfl
@[simp] theorem seekDone_script (s : State) : (seekDone s).script = s.script := rfl

@[simp] theorem setLinkRx_t (q : List Byte) (s : State) : (setLinkRx q s).t = s.t := rfl
@[simp] theorem setLinkRx_sense (q : List Byte) (s : State) : (setLinkRx q s).sense = s.sense := rfl
@[simp] theorem setLinkRx_d (q : List Byte) (s : State) : (setLinkRx q s).d = s.d := rfl
@[simp] theorem setLinkRx_hostToDevice (q : List Byte) (s : State) :
    (setLinkRx q s).hostToDevice = { s.hostToDevice with queue := q } := rfl
@[simp] theorem setLinkRx_deviceToHost (q : List Byte) (s : State) :
    (setLinkRx q s).deviceToHost = s.deviceToHost := rfl
@[simp] theorem setLinkRx_writeData (q : List Byte) (s : State) :
    (setLinkRx q s).writeData = s.writeData := rfl
@[simp] theorem setLinkRx_h (q : List Byte) (s : State) : (setLinkRx q s).h = s.h := rfl
@[simp] theorem setLinkRx_draws (q : List Byte) (s : State) : (setLinkRx q s).draws = s.draws := rfl
@[simp] theorem setLinkRx_script (q : List Byte) (s : State) : (setLinkRx q s).script = s.script := rfl

@[simp] theorem setHostRx_t (q : List Byte) (s : State) : (setHostRx q s).t = s.t := rfl
@[simp] theorem setHostRx_sense (q : List Byte) (s : State) : (setHostRx q s).sense = s.sense := rfl
@[simp] theorem setHostRx_d (q : List Byte) (s : State) : (setHostRx q s).d = s.d := rfl
@[simp] theorem setHostRx_hostToDevice (q : List Byte) (s : State) :
    (setHostRx q s).hostToDevice = s.hostToDevice := rfl
@[simp] theorem setHostRx_deviceToHost (q : List Byte) (s : State) :
    (setHostRx q s).deviceToHost = { s.deviceToHost with queue := q } := rfl
@[simp] theorem setHostRx_writeData (q : List Byte) (s : State) :
    (setHostRx q s).writeData = s.writeData := rfl
@[simp] theorem setHostRx_h (q : List Byte) (s : State) : (setHostRx q s).h = s.h := rfl
@[simp] theorem setHostRx_draws (q : List Byte) (s : State) : (setHostRx q s).draws = s.draws := rfl
@[simp] theorem setHostRx_script (q : List Byte) (s : State) : (setHostRx q s).script = s.script := rfl

@[simp] theorem holdOpcode_t (b : Byte) (s : State) : (holdOpcode b s).t = s.t := rfl
@[simp] theorem holdOpcode_sense (b : Byte) (s : State) : (holdOpcode b s).sense = s.sense := rfl
@[simp] theorem holdOpcode_d (b : Byte) (s : State) :
    (holdOpcode b s).d = { s.d with op := b, phase := .data } := rfl
@[simp] theorem holdOpcode_hostToDevice (b : Byte) (s : State) :
    (holdOpcode b s).hostToDevice = s.hostToDevice := rfl
@[simp] theorem holdOpcode_deviceToHost (b : Byte) (s : State) :
    (holdOpcode b s).deviceToHost = s.deviceToHost := rfl
@[simp] theorem holdOpcode_writeData (b : Byte) (s : State) :
    (holdOpcode b s).writeData = s.writeData := rfl
@[simp] theorem holdOpcode_h (b : Byte) (s : State) : (holdOpcode b s).h = s.h := rfl
@[simp] theorem holdOpcode_draws (b : Byte) (s : State) : (holdOpcode b s).draws = s.draws := rfl
@[simp] theorem holdOpcode_script (b : Byte) (s : State) : (holdOpcode b s).script = s.script := rfl

@[simp] theorem completeFrame_t (s : State) : (completeFrame s).t = s.t := rfl
@[simp] theorem completeFrame_sense (s : State) : (completeFrame s).sense = s.sense := rfl
@[simp] theorem completeFrame_d (s : State) : (completeFrame s).d = { s.d with phase := .opcode } := rfl
@[simp] theorem completeFrame_hostToDevice (s : State) :
    (completeFrame s).hostToDevice = s.hostToDevice := rfl
@[simp] theorem completeFrame_deviceToHost (s : State) :
    (completeFrame s).deviceToHost = s.deviceToHost := rfl
@[simp] theorem completeFrame_writeData (s : State) : (completeFrame s).writeData = s.writeData := rfl
@[simp] theorem completeFrame_h (s : State) : (completeFrame s).h = s.h := rfl
@[simp] theorem completeFrame_draws (s : State) : (completeFrame s).draws = s.draws := rfl
@[simp] theorem completeFrame_script (s : State) : (completeFrame s).script = s.script := rfl

@[simp] theorem dropTurn_t (s : State) : (dropTurn s).t = s.t := rfl
@[simp] theorem dropTurn_sense (s : State) : (dropTurn s).sense = s.sense := rfl
@[simp] theorem dropTurn_d (s : State) : (dropTurn s).d = s.d := rfl
@[simp] theorem dropTurn_hostToDevice (s : State) : (dropTurn s).hostToDevice = s.hostToDevice := rfl
@[simp] theorem dropTurn_deviceToHost (s : State) : (dropTurn s).deviceToHost = s.deviceToHost := rfl
@[simp] theorem dropTurn_writeData (s : State) : (dropTurn s).writeData = s.writeData := rfl
@[simp] theorem dropTurn_h (s : State) : (dropTurn s).h = s.h := rfl
@[simp] theorem dropTurn_draws (s : State) : (dropTurn s).draws = s.draws := rfl
@[simp] theorem dropTurn_script (s : State) : (dropTurn s).script = s.script.tail := rfl

@[simp] theorem connect_t (rate : HostRate) (s : State) : (connect rate s).t = s.t := rfl
@[simp] theorem connect_sense (rate : HostRate) (s : State) :
    (connect rate s).sense = s.sense := rfl
@[simp] theorem connect_d (rate : HostRate) (s : State) : (connect rate s).d = s.d := rfl
@[simp] theorem connect_hostToDevice (rate : HostRate) (s : State) :
    (connect rate s).hostToDevice = { s.hostToDevice with closed := false } := rfl
@[simp] theorem connect_deviceToHost (rate : HostRate) (s : State) :
    (connect rate s).deviceToHost = { s.deviceToHost with closed := false } := rfl
@[simp] theorem connect_writeData (rate : HostRate) (s : State) :
    (connect rate s).writeData = s.writeData := rfl
@[simp] theorem connect_h (rate : HostRate) (s : State) :
    (connect rate s).h = { s.h with outstanding := false, transfer := .none, direct := .none } := rfl
@[simp] theorem connect_draws (rate : HostRate) (s : State) :
    (connect rate s).draws = s.draws := rfl
@[simp] theorem connect_script (rate : HostRate) (s : State) :
    (connect rate s).script = s.script := rfl

/-! The line and the free schedule's counter. -/

@[simp] theorem sendByte_line (b : Byte) (s : State) : (sendByte b s).line = s.line := rfl
@[simp] theorem sendByte_turns (b : Byte) (s : State) : (sendByte b s).turns = s.turns := rfl
@[simp] theorem respond_line (rop rdata : Byte) (s : State) :
    (respond rop rdata s).line = s.line := rfl
@[simp] theorem respond_turns (rop rdata : Byte) (s : State) :
    (respond rop rdata s).turns = s.turns := rfl
@[simp] theorem writeChannel_line (b : Byte) (s : State) : (writeChannel b s).line = s.line := rfl
@[simp] theorem writeChannel_turns (b : Byte) (s : State) :
    (writeChannel b s).turns = s.turns := rfl
@[simp] theorem setTransport_line (t : TransportState) (s : State) :
    (setTransport t s).line = s.line := rfl
@[simp] theorem setTransport_turns (t : TransportState) (s : State) :
    (setTransport t s).turns = s.turns := rfl
@[simp] theorem setMode_line (m : Mode) (s : State) : (setMode m s).line = s.line := rfl
@[simp] theorem setMode_turns (m : Mode) (s : State) : (setMode m s).turns = s.turns := rfl
@[simp] theorem clearLatch_line (s : State) : (clearLatch s).line = s.line := rfl
@[simp] theorem clearLatch_turns (s : State) : (clearLatch s).turns = s.turns := rfl
@[simp] theorem eotEvent_line (s : State) : (eotEvent s).line = s.line := rfl
@[simp] theorem eotEvent_turns (s : State) : (eotEvent s).turns = s.turns := rfl
@[simp] theorem resetDevice_line (s : State) : (resetDevice s).line = s.line := rfl
@[simp] theorem resetDevice_turns (s : State) : (resetDevice s).turns = s.turns := rfl
@[simp] theorem setHost_line (h : HostState) (s : State) : (setHost h s).line = s.line := rfl
@[simp] theorem setHost_turns (h : HostState) (s : State) : (setHost h s).turns = s.turns := rfl
@[simp] theorem goTo_line (task : Task) (s : State) : (goTo task s).line = s.line := rfl
@[simp] theorem goTo_turns (task : Task) (s : State) : (goTo task s).turns = s.turns := rfl
@[simp] theorem finish_line (r : RunResult) (s : State) : (finish r s).line = s.line := rfl
@[simp] theorem finish_turns (r : RunResult) (s : State) : (finish r s).turns = s.turns := rfl
@[simp] theorem record_line (f : FrameRecord) (s : State) : (record f s).line = s.line := rfl
@[simp] theorem record_turns (f : FrameRecord) (s : State) : (record f s).turns = s.turns := rfl
@[simp] theorem seekDone_line (s : State) : (seekDone s).line = s.line := rfl
@[simp] theorem seekDone_turns (s : State) : (seekDone s).turns = s.turns := rfl
@[simp] theorem setLinkRx_line (q : List Byte) (s : State) : (setLinkRx q s).line = s.line := rfl
@[simp] theorem setLinkRx_turns (q : List Byte) (s : State) : (setLinkRx q s).turns = s.turns := rfl
@[simp] theorem setHostRx_line (q : List Byte) (s : State) : (setHostRx q s).line = s.line := rfl
@[simp] theorem setHostRx_turns (q : List Byte) (s : State) : (setHostRx q s).turns = s.turns := rfl
@[simp] theorem holdOpcode_line (b : Byte) (s : State) : (holdOpcode b s).line = s.line := rfl
@[simp] theorem holdOpcode_turns (b : Byte) (s : State) : (holdOpcode b s).turns = s.turns := rfl
@[simp] theorem completeFrame_line (s : State) : (completeFrame s).line = s.line := rfl
@[simp] theorem completeFrame_turns (s : State) : (completeFrame s).turns = s.turns := rfl
@[simp] theorem dropTurn_line (s : State) : (dropTurn s).line = s.line := rfl
@[simp] theorem dropTurn_turns (s : State) :
    (dropTurn s).turns = (if s.script.isEmpty then s.turns + 1 else s.turns) := rfl
@[simp] theorem connect_line (rate : HostRate) (s : State) :
    (connect rate s).line = { s.line with rate := rate } := rfl
@[simp] theorem connect_turns (rate : HostRate) (s : State) :
    (connect rate s).turns = s.turns := rfl

/-! The state in which a turn is taken. -/

@[simp] theorem settle_t (s : State) : (settle s).t = s.t := rfl
@[simp] theorem settle_sense (s : State) : (settle s).sense = s.sense := rfl
@[simp] theorem settle_d (s : State) : (settle s).d = s.d := rfl
@[simp] theorem settle_hostToDevice (s : State) : (settle s).hostToDevice =
    { s.hostToDevice with queue := delivered s.line s.line.noise s.hostToDevice.queue } := rfl
@[simp] theorem settle_deviceToHost (s : State) : (settle s).deviceToHost =
    { s.deviceToHost with queue := delivered s.line (s.line.noise + 1) s.deviceToHost.queue } := rfl
@[simp] theorem settle_writeData (s : State) : (settle s).writeData = s.writeData := rfl
@[simp] theorem settle_h (s : State) : (settle s).h = s.h := rfl
@[simp] theorem settle_draws (s : State) : (settle s).draws = s.draws := rfl
@[simp] theorem settle_script (s : State) : (settle s).script = s.script.tail := rfl
@[simp] theorem settle_turns (s : State) :
    (settle s).turns = if s.script.isEmpty then s.turns + 1 else s.turns := rfl
@[simp] theorem settle_line (s : State) : (settle s).line =
    if s.line.rate.same then s.line else { s.line with noise := s.line.noise + 2 } := rfl

/-- The noise never changes the rate of the host's end. -/
@[simp] theorem settle_rate (s : State) : (settle s).line.rate = s.line.rate := by
  rw [settle_line]
  split <;> rfl

/-- At the same rate every byte arrives as sent. -/
theorem delivered_same {line : LineState} (h : line.rate.same = true) (n : Nat) (queue : List Byte) :
    delivered line n queue = queue := by
  simp [delivered, h]

/-- At the same rate the turn is all that is taken. -/
theorem settle_same {s : State} (h : s.line.rate.same = true) : settle s = dropTurn s := by
  obtain ⟨t, sense, d, ⟨q1, c1⟩, ⟨q2, c2⟩, line, wd, hs, dr, sc, tu⟩ := s
  simp only at h
  simp only [settle, lineNoise, dropTurn, delivered, h, if_true]


end Sys2Proof.Laws
end

