-- ==== Sys2Proof/Laws/HostSide.lean ====
section
/-! SUPPORT. What the host's operations can do, said once: `resume` and `endSend` change the host's
program fields only, and `hostStep` is one of six steps. -/

namespace Sys2Proof.Laws

open Sys2Proof.Machine

/-- `resume` changes the host only. -/
theorem resume_eq (o : SendOutcome) (s : State) : resume o s = setHost (resume o s).h s := by
  unfold resume
  split <;> (try split) <;> (try split) <;> rfl

/-- `resume` touches neither the transfer nor the request, the trace, the input or the cancellation. -/
theorem resume_h (o : SendOutcome) (s : State) :
    (resume o s).h.outstanding = s.h.outstanding ∧ (resume o s).h.transfer = s.h.transfer ∧
    (resume o s).h.reqOp = s.h.reqOp ∧ (resume o s).h.cancel = s.h.cancel ∧
    (resume o s).h.trace = s.h.trace ∧ (resume o s).h.direct = s.h.direct ∧
    (resume o s).h.source = s.h.source := by
  unfold resume
  split <;> (try split) <;> (try split) <;> simp [deliver, written]

/-- After `send`, nothing is outstanding, and only the host has changed. -/
theorem endSend_eq (o : SendOutcome) (s : State) : endSend o s = setHost (endSend o s).h s := by
  unfold endSend
  rw [resume_eq]
  rfl

theorem endSend_h (o : SendOutcome) (s : State) :
    (endSend o s).h.outstanding = false ∧ (endSend o s).h.transfer = .none ∧
    (endSend o s).h.reqOp = s.h.reqOp ∧ (endSend o s).h.cancel = s.h.cancel ∧
    (endSend o s).h.trace = s.h.trace ∧ (endSend o s).h.direct = s.h.direct := by
  unfold endSend
  obtain ⟨h1, h2, h3, h4, h5, h6, -⟩ :=
    resume_h o (setHost { s.h with outstanding := false, transfer := .none } s)
  exact ⟨h1, h2, h3, h4, h5, h6⟩

/-- Fields of the rest of the state after `send` has ended. -/
@[simp] theorem endSend_t (o : SendOutcome) (s : State) : (endSend o s).t = s.t := by rw [endSend_eq]; rfl
@[simp] theorem endSend_d (o : SendOutcome) (s : State) : (endSend o s).d = s.d := by rw [endSend_eq]; rfl
@[simp] theorem endSend_sense (o : SendOutcome) (s : State) : (endSend o s).sense = s.sense := by
  rw [endSend_eq]; rfl
@[simp] theorem endSend_hostToDevice (o : SendOutcome) (s : State) :
    (endSend o s).hostToDevice = s.hostToDevice := by rw [endSend_eq]; rfl
@[simp] theorem endSend_deviceToHost (o : SendOutcome) (s : State) :
    (endSend o s).deviceToHost = s.deviceToHost := by rw [endSend_eq]; rfl
@[simp] theorem endSend_writeData (o : SendOutcome) (s : State) : (endSend o s).writeData = s.writeData := by
  rw [endSend_eq]; rfl
@[simp] theorem endSend_draws (o : SendOutcome) (s : State) : (endSend o s).draws = s.draws := by
  rw [endSend_eq]; rfl
@[simp] theorem endSend_line (o : SendOutcome) (s : State) : (endSend o s).line = s.line := by
  rw [endSend_eq]; rfl
@[simp] theorem endSend_turns (o : SendOutcome) (s : State) : (endSend o s).turns = s.turns := by
  rw [endSend_eq]; rfl
@[simp] theorem endSend_script (o : SendOutcome) (s : State) : (endSend o s).script = s.script := by
  rw [endSend_eq]; rfl

/-- What `beginSend` can do: start the transfer, or refuse (R171). -/
theorem beginSend_cases (op data : Byte) (s : State) :
    (s.h.outstanding = true ∧ beginSend op data s = .refused .sendWhileOutstanding) ∨
    (s.h.outstanding = false ∧
      beginSend op data s = .next (setHost
        { s.h with outstanding := true, reqOp := op, transfer := .sendOpcode op data } s)) := by
  unfold beginSend
  cases s.h.outstanding <;> simp

/-- What the host's step can be. -/
theorem hostStep_cases {s : State} {o : Host.Outcome State Fault Refusal} (h : hostStep s = some o) :
    (∃ op data, s.h.transfer = .none ∧ s.h.task.request = some (op, data) ∧ o = beginSend op data s) ∨
    (∃ t, s.h.transfer = .none ∧ s.h.task.request = none ∧ controlStep s = some t ∧ o = .next t) ∨
    (∃ b0 b1, s.h.transfer = .sendOpcode b0 b1 ∧ o = sendOpcodeStep b0 b1 s) ∨
    (∃ b1, s.h.transfer = .sendData b1 ∧ o = sendDataStep b1 s) ∨
    (∃ t, s.h.transfer = .recvOpcode ∧ recvOpcodeStep s = some t ∧ o = .next t) ∨
    (∃ r0 t, s.h.transfer = .recvData r0 ∧ recvDataStep r0 s = some t ∧ o = .next t) := by
  unfold hostStep at h
  cases ht : s.h.transfer with
  | none =>
    simp only [ht] at h
    cases hr : s.h.task.request with
    | none =>
      simp only [hr, Option.map_eq_some_iff] at h
      obtain ⟨t, h1, h2⟩ := h
      exact .inr (.inl ⟨t, rfl, rfl, h1, h2.symm⟩)
    | some p =>
      simp only [hr, Option.some.injEq] at h
      exact .inl ⟨p.1, p.2, rfl, rfl, h.symm⟩
  | sendOpcode b0 b1 =>
    simp only [ht, Option.some.injEq] at h
    exact .inr (.inr (.inl ⟨b0, b1, rfl, h.symm⟩))
  | sendData b1 =>
    simp only [ht, Option.some.injEq] at h
    exact .inr (.inr (.inr (.inl ⟨b1, rfl, h.symm⟩)))
  | recvOpcode =>
    simp only [ht, Option.map_eq_some_iff] at h
    obtain ⟨t, h1, h2⟩ := h
    exact .inr (.inr (.inr (.inr (.inl ⟨t, rfl, h1, h2.symm⟩))))
  | recvData r0 =>
    simp only [ht, Option.map_eq_some_iff] at h
    obtain ⟨t, h1, h2⟩ := h
    exact .inr (.inr (.inr (.inr (.inr ⟨r0, t, rfl, h1, h2.symm⟩))))

/-- What `HostSend` can come to: fail on a closed channel, break R264, or append. -/
theorem hostSend_cases (b : Byte) (frame : DirectFrame) (s : State) :
    (s.hostToDevice.closed = true ∧ hostSend b frame s = .failed) ∨
    (s.hostToDevice.closed = false ∧ s.h.responseOutstanding = true ∧ hostSend b frame s = .outOfTurn) ∨
    (s.hostToDevice.closed = false ∧ s.h.responseOutstanding = false ∧
      hostSend b frame s = .sent
        (setHost { s.h with direct := frame } (setLinkRx (s.hostToDevice.queue ++ [b]) s))) := by
  unfold hostSend
  cases s.hostToDevice.closed <;> cases s.h.responseOutstanding <;> simp

/-- What transmitting the opcode byte does (R172, R173, R264). -/
theorem sendOpcodeStep_cases (b0 b1 : Byte) (s : State) :
    (s.hostToDevice.closed = true ∧ sendOpcodeStep b0 b1 s = .next (endSend (.raised .linkIO) s)) ∨
    (s.hostToDevice.closed = false ∧ s.h.responseOutstanding = true ∧
      sendOpcodeStep b0 b1 s = .refused .writeWhileResponseOutstanding) ∨
    (s.hostToDevice.closed = false ∧ s.h.responseOutstanding = false ∧ sendOpcodeStep b0 b1 s = .next
      (setHost { s.h with direct := s.h.direct.afterSend, transfer := .sendData b1 }
        (setLinkRx (s.hostToDevice.queue ++ [b0]) s))) := by
  unfold sendOpcodeStep
  rcases hostSend_cases b0 s.h.direct.afterSend s with ⟨h, e⟩ | ⟨h, r, e⟩ | ⟨h, r, e⟩ <;> rw [e]
  · exact .inl ⟨h, rfl⟩
  · exact .inr (.inl ⟨h, r, rfl⟩)
  · exact .inr (.inr ⟨h, r, rfl⟩)

/-- What transmitting the data byte does (R172, R173, R264). -/
theorem sendDataStep_cases (b1 : Byte) (s : State) :
    (s.hostToDevice.closed = true ∧ sendDataStep b1 s = .next (endSend (.raised .linkIO) s)) ∨
    (s.hostToDevice.closed = false ∧ s.h.responseOutstanding = true ∧
      sendDataStep b1 s = .refused .writeWhileResponseOutstanding) ∨
    (s.hostToDevice.closed = false ∧ s.h.responseOutstanding = false ∧ sendDataStep b1 s = .next
      (setHost
        { s.h with
          direct := s.h.direct.afterSend, transfer := .recvOpcode,
          trace := s.h.trace ++ [.request s.h.reqOp b1] }
        (setLinkRx (s.hostToDevice.queue ++ [b1]) s))) := by
  unfold sendDataStep
  rcases hostSend_cases b1 s.h.direct.afterSend s with ⟨h, e⟩ | ⟨h, r, e⟩ | ⟨h, r, e⟩ <;> rw [e]
  · exact .inl ⟨h, rfl⟩
  · exact .inr (.inl ⟨h, r, rfl⟩)
  · exact .inr (.inr ⟨h, r, rfl⟩)

/-- What receiving the first response byte does (R172, R173, R177). -/
theorem recvOpcodeStep_cases {s t : State} (h : recvOpcodeStep s = some t) :
    (s.deviceToHost.closed = true ∧ t = endSend (.raised .linkIO) s) ∨
    (∃ r0 rest, s.deviceToHost.closed = false ∧ s.deviceToHost.queue = r0 :: rest ∧
      t = setHost { s.h with transfer := .recvData r0 } (setHostRx rest s)) := by
  unfold recvOpcodeStep hostRecv at h
  cases hc : s.deviceToHost.closed <;> cases hq : s.deviceToHost.queue <;>
    simp [hc, hq] at h <;> simp [← h]

/-- What receiving the second response byte does (R172, R174, R177). -/
theorem recvDataStep_cases {r0 : Byte} {s t : State} (h : recvDataStep r0 s = some t) :
    (s.deviceToHost.closed = true ∧ t = endSend (.raised .linkIO) s) ∨
    (∃ r1 rest, s.deviceToHost.closed = false ∧ s.deviceToHost.queue = r1 :: rest ∧
      t = endSend (checkEcho s.h.reqOp r0 r1) (record (.response r0 r1) (setHostRx rest s))) := by
  unfold recvDataStep hostRecv at h
  cases hc : s.deviceToHost.closed <;> cases hq : s.deviceToHost.queue <;>
    simp [hc, hq] at h <;> simp [← h]

/-- A program's control step leaves the device alone and moves no byte. -/
theorem controlStep_frame {s t : State} (h : controlStep s = some t) :
    t.t = s.t ∧ t.sense = s.sense ∧ t.d = s.d ∧ t.writeData = s.writeData ∧ t.draws = s.draws ∧
    t.script = s.script ∧ t.turns = s.turns ∧ t.hostToDevice.queue = s.hostToDevice.queue ∧
    t.deviceToHost.queue = s.deviceToHost.queue := by
  unfold controlStep at h
  split at h <;> (try split at h) <;> (try split at h) <;> simp at h <;> subst h <;> simp

/-- The host's step leaves the device alone; on the wire it appends to `host_tx` and takes at most
the oldest byte of `host_rx` (R238). -/
theorem hostStep_frame {s t : State} (h : hostStep s = some (.next t)) :
    t.t = s.t ∧ t.sense = s.sense ∧ t.d = s.d ∧ t.writeData = s.writeData ∧ t.draws = s.draws ∧
    t.script = s.script ∧ t.turns = s.turns ∧ s.hostToDevice.queue <+: t.hostToDevice.queue ∧
    (t.deviceToHost.queue = s.deviceToHost.queue ∨
      ∃ b, s.deviceToHost.queue = b :: t.deviceToHost.queue) := by
  rcases hostStep_cases h with ⟨op, data, _, _, ho⟩ | ⟨t', _, _, hc, ho⟩ | ⟨b0, b1, _, ho⟩ |
    ⟨b1, _, ho⟩ | ⟨t', _, hc, ho⟩ | ⟨r0, t', _, hc, ho⟩
  · rcases beginSend_cases op data s with ⟨_, hb⟩ | ⟨_, hb⟩ <;> rw [hb] at ho <;> simp at ho
    subst ho
    simp
  · simp only [Host.Outcome.next.injEq] at ho
    subst ho
    obtain ⟨a1, a2, a3, a4, a5, a6, a7, a8, a9⟩ := controlStep_frame hc
    simp [a1, a2, a3, a4, a5, a6, a7, a8, a9]
  · rcases sendOpcodeStep_cases b0 b1 s with ⟨_, e⟩ | ⟨_, _, e⟩ | ⟨_, _, e⟩ <;> rw [e] at ho <;> simp at ho <;>
      subst ho <;> simp
  · rcases sendDataStep_cases b1 s with ⟨_, e⟩ | ⟨_, _, e⟩ | ⟨_, _, e⟩ <;> rw [e] at ho <;> simp at ho <;>
      subst ho <;> simp
  · simp only [Host.Outcome.next.injEq] at ho
    subst ho
    rcases recvOpcodeStep_cases hc with ⟨_, e⟩ | ⟨r, rest, _, hq, e⟩
    · rw [e]; simp
    · rw [e]; simp [hq]
  · simp only [Host.Outcome.next.injEq] at ho
    subst ho
    rcases recvDataStep_cases hc with ⟨_, e⟩ | ⟨r, rest, _, hq, e⟩
    · rw [e]; simp
    · rw [e]; simp [hq]

/-- The opcodes the echo check accepts, spelled out (R174). -/
theorem mem_accept (op rop : Byte) : rop ∈ accept op ↔ rop = op ∨ (op = 0x08 ∧ rop = 0x09) := by
  unfold accept
  split <;> simp_all

/-- A program that is resumed with an error delivers nothing (R175). -/
theorem resume_raised (e : HostError) (s : State) :
    (resume (.raised e) s).h.sink = s.h.sink ∧ (resume (.raised e) s).h.echoSink = s.h.echoSink ∧
    (resume (.raised e) s).h.report = s.h.report := by
  unfold resume
  split <;> simp

/-- A control step sends nothing: it starts no request and no transfer, and transmits no frame. -/
theorem controlStep_host {s t : State} (h : controlStep s = some t) :
    (t.h.outstanding = s.h.outstanding ∨ t.h.outstanding = false) ∧
    (t.h.transfer = s.h.transfer ∨ t.h.transfer = .none) ∧
    (t.h.direct = s.h.direct ∨ t.h.direct = .none) ∧ t.h.trace = s.h.trace ∧ t.h.reqOp = s.h.reqOp := by
  unfold controlStep at h
  split at h <;> (try split at h) <;> (try split at h) <;> simp at h <;> subst h <;> simp

/-- Starting a program starts no request, and clears the trace. -/
theorem launch_host (p : Program) (s : State) :
    (launch p s).h.outstanding = s.h.outstanding ∧ (launch p s).h.transfer = s.h.transfer ∧
    (launch p s).h.direct = s.h.direct ∧ (launch p s).h.trace = [] ∧
    (launch p s).h.reqOp = s.h.reqOp := by
  unfold launch
  split <;> (try split) <;> simp [freshRun]

/-- Starting a program changes the host only. -/
theorem launch_eq (p : Program) (s : State) : launch p s = setHost (launch p s).h s := by
  unfold launch
  split <;> (try split) <;> rfl

/-- A `send` that begins changes the host only. -/
theorem beginSend_eq {op data : Byte} {s t : State} (h : beginSend op data s = .next t) :
    t = setHost t.h s := by
  rcases beginSend_cases op data s with ⟨_, hb⟩ | ⟨_, hb⟩ <;> rw [hb] at h <;> simp at h
  subst h
  rfl

end Sys2Proof.Laws
end

