-- ==== Sys2Proof/Laws/Responder.lean ====
section
/-! SUPPORT. What the shared device operations, `exec` and the Responder's step can do, said once. -/

namespace Sys2Proof.Laws

open Sys2Proof.Machine

/-- `Respond` appends the two bytes of one response, opcode first (R51, R95). -/
theorem respond_eq_answered (rop rdata : Byte) (s : State) :
    respond rop rdata s = Safety.answered rop rdata s := by
  simp [respond, sendByte, pushByte, Safety.answered, List.append_assoc]

/-- The Responder's state read back. -/
@[simp] theorem answerPoll_d (b : Byte) (s : State) : (answerPoll b s).d = { s.d with mode := .idle } := rfl
@[simp] theorem answerPoll_t (b : Byte) (s : State) : (answerPoll b s).t = s.t := rfl
@[simp] theorem answerPoll_h (b : Byte) (s : State) : (answerPoll b s).h = s.h := rfl
@[simp] theorem answerPoll_sense (b : Byte) (s : State) : (answerPoll b s).sense = s.sense := rfl
@[simp] theorem answerPoll_hostToDevice (b : Byte) (s : State) :
    (answerPoll b s).hostToDevice = s.hostToDevice := rfl
@[simp] theorem answerPoll_writeData (b : Byte) (s : State) : (answerPoll b s).writeData = s.writeData := rfl
@[simp] theorem answerPoll_draws (b : Byte) (s : State) : (answerPoll b s).draws = s.draws := rfl
@[simp] theorem answerPoll_script (b : Byte) (s : State) : (answerPoll b s).script = s.script := rfl
@[simp] theorem answerPoll_line (b : Byte) (s : State) : (answerPoll b s).line = s.line := rfl
@[simp] theorem answerPoll_turns (b : Byte) (s : State) : (answerPoll b s).turns = s.turns := rfl
@[simp] theorem answerPoll_deviceToHost (b : Byte) (s : State) :
    (answerPoll b s).deviceToHost =
      { s.deviceToHost with queue :=
          s.deviceToHost.queue ++ [if s.t.eotLatched then Config.opDataEot else Config.opData, b] } := by
  simp [answerPoll, pushByte, List.append_assoc]

/-- A poll completed by the latch is a poll answered with a free byte. -/
theorem answerPollByLatch_eq (s : State) :
    answerPollByLatch s = answerPoll (Config.freeByte s.draws) { s with draws := s.draws + 1 } := rfl

/-- What every command leaves alone: the host, the inputs, the line, the schedule and the frame
assembler. -/
theorem exec_frame {i : Instr} {s t : State} (h : exec i s = .next t) :
    t.h = s.h ∧ t.sense = s.sense ∧ t.hostToDevice = s.hostToDevice ∧ t.draws = s.draws ∧
    t.script = s.script ∧ t.d.phase = s.d.phase ∧ t.d.op = s.d.op ∧
    t.deviceToHost.closed = s.deviceToHost.closed ∧ t.line = s.line ∧ t.turns = s.turns := by
  cases i <;>
    simp only [exec, execGetStatus, execSetTrack, execSeek, execStartMotor, execStopMotor, execWrite,
      execStartWrite, execStopWrite, execData, execDataEot, execResetEot, execReserved0B,
      execReserved0C0F, execReserved101F, execReserved203F, execReserved407F, execReserved80FF,
      answerReserved, Host.Outcome.next.injEq] at h <;>
    subst h <;> (try split) <;> simp

theorem mode_cases : ∀ m : Mode, m = .idle ∨ m = .seeking ∨ m = .polling
  | .idle => .inl rfl
  | .seeking => .inr (.inl rfl)
  | .polling => .inr (.inr rfl)

theorem phase_cases : ∀ p : Phase, p = .opcode ∨ p = .data
  | .opcode => .inl rfl
  | .data => .inr rfl

/-- What an instruction's decoding says of its two bytes. -/
theorem decode_bytes {op data : Byte} {i : Instr} (h : decode [op, data] = .ok i) :
    i.opcode = op ∧ i.dataByte = data := by
  obtain ⟨o, d, r, h1, h2, rfl⟩ := decode_ok h
  simp only [List.cons.injEq, and_true] at h1
  obtain ⟨rfl, rfl⟩ := h1
  exact ⟨opcode_of_rowOf _ _ _ h2, by cases r <;> rfl⟩

/-- Which command changes which register, output or wait: the track only SET_TRACK, the latch only
RESET_EOT and a clearing GET_STATUS, `write_data` only WRITE; SEEK and DATA wait, every other command
answers with its opcode (R121, R76). -/
theorem exec_effects {i : Instr} {s t : State} (h : exec i s = .next t) :
    (t.t.track ≠ s.t.track → ∃ d, i = .setTrack d ∧ s.t.motorOn = false ∧ s.t.ffOn = false ∧
      d.toNat ≤ 3 ∧ t.t.track = BitVec.ofNat 2 d.toNat) ∧
    (t.t.eotLatched ≠ s.t.eotLatched → ∃ d, i = .resetEot d ∨ (i = .getStatus d ∧ d ≠ 0)) ∧
    (t.writeData ≠ s.writeData →
      s.t.writeEnabled = true ∧ ∃ d, i = .write d ∧ t.writeData = s.writeData ++ [d]) ∧
    ((∃ d, i = .seek d ∧ t.deviceToHost = s.deviceToHost ∧ t.d.mode = .seeking) ∨
     (∃ d, i = .data d ∧ t.deviceToHost = s.deviceToHost ∧ t.d.mode = .polling) ∨
     ((∀ d, i ≠ .seek d) ∧ (∀ d, i ≠ .data d) ∧ t.d.mode = s.d.mode ∧
       ∃ r, t.deviceToHost.queue = s.deviceToHost.queue ++ [i.opcode, r])) := by
  have inRange : ∀ d : Byte, ∀ tr, operandTrack d = some tr → d.toNat ≤ 3 ∧ tr = BitVec.ofNat 2 d.toNat := by
    decide
  cases i <;>
    simp only [exec, execGetStatus, execSetTrack, execSeek, execStartMotor, execStopMotor, execWrite,
      execStartWrite, execStopWrite, execData, execDataEot, execResetEot, execReserved0B,
      execReserved0C0F, execReserved101F, execReserved203F, execReserved407F, execReserved80FF,
      answerReserved, Host.Outcome.next.injEq] at h <;>
    subst h
  case setTrack d =>
    cases ho : operandTrack d with
    | none => simp [Instr.opcode]
    | some tr =>
      obtain ⟨a, rfl⟩ := inRange _ _ ho
      by_cases hst : s.t.stationary = true <;> simp [hst, Instr.opcode]
      intro _
      simp only [TransportState.stationary, Bool.and_eq_true, Bool.not_eq_true'] at hst
      exact ⟨hst.1, hst.2, a⟩
  case getStatus d =>
    by_cases hd : operandFlag d = true <;> simp [hd, Instr.opcode]
    intro _
    simpa [operandFlag] using hd
  all_goals (try split) <;> simp_all [Instr.opcode, operandByte]

/-- What the Responder's step can be: the first byte of a frame held, a frame dispatched, or a poll
completed on the latch. -/
theorem responderStep_cases {s : State} {o : Host.Outcome State Fault Refusal}
    (h : responderStep s = some o) :
    (∃ b rest, s.d.mode = .idle ∧ s.d.phase = .opcode ∧ s.hostToDevice.queue = b :: rest ∧
      o = .next (holdOpcode b (setLinkRx rest s))) ∨
    (∃ data rest i, s.d.mode = .idle ∧ s.d.phase = .data ∧ s.hostToDevice.queue = data :: rest ∧
      decode [s.d.op, data] = .ok i ∧
      o = exec i (completeFrame (setLinkRx rest s))) ∨
    (s.d.mode = .polling ∧ s.t.eotLatched = true ∧ o = .next (answerPollByLatch s)) := by
  unfold responderStep receiveByte recvByte at h
  obtain hm | hm | hm := mode_cases s.d.mode
  · cases hq : s.hostToDevice.queue with
    | nil => simp [hm, hq] at h
    | cons b rest =>
      obtain hp | hp := phase_cases s.d.phase
      · simp only [hm, hq, setLinkRx_d, hp, Option.some.injEq] at h
        exact .inl ⟨b, rest, hm, hp, rfl, h.symm⟩
      · simp only [hm, hq, setLinkRx_d, hp, Option.some.injEq, dispatch, codecEncode] at h
        obtain ⟨r, -, hd⟩ := decode_total s.d.op b
        simp only [hd] at h
        exact .inr (.inl ⟨b, rest, _, hm, hp, rfl, hd, h.symm⟩)
  · simp [hm] at h
  · obtain hl | hl := Bool.eq_false_or_eq_true s.t.eotLatched
    · simp only [hm, hl, if_true, Option.some.injEq] at h
      exact .inr (.inr ⟨hm, hl, h.symm⟩)
    · simp [hm, hl] at h

/-- The Responder leaves the host alone (R238). -/
theorem responderStep_h {s t : State} (h : responderStep s = some (.next t)) : t.h = s.h := by
  rcases responderStep_cases h with ⟨b, rest, _, _, _, ho⟩ | ⟨d, rest, i, _, _, _, _, ho⟩ | ⟨_, _, ho⟩
  · simp only [Host.Outcome.next.injEq] at ho
    subst ho
    simp
  · exact (exec_frame ho.symm).1
  · simp only [Host.Outcome.next.injEq] at ho
    subst ho
    simp [answerPollByLatch_eq]

/-- The Responder has no step exactly where it waits. -/
theorem responderStep_none {s : State} :
    responderStep s = none ↔
      (s.d.mode = .idle ∧ s.hostToDevice.queue = []) ∨ s.d.mode = .seeking ∨
      (s.d.mode = .polling ∧ s.t.eotLatched = false) := by
  unfold responderStep receiveByte recvByte
  obtain hm | hm | hm := mode_cases s.d.mode
  · obtain hp | hp := phase_cases s.d.phase <;> cases hq : s.hostToDevice.queue <;> simp [hm, hp]
  · simp [hm]
  · simp [hm]

end Sys2Proof.Laws
end

