-- ==== Sys2Proof/Laws/Environment.lean ====
section
/-! SUPPORT. What an environment step can do to the device and to the bytes on their way to the host. -/

namespace Sys2Proof.Laws

open Sys2Proof.Machine

/-- A call of `send` changes the host only. -/
theorem callSend_eq {op data : Byte} {s t : State} (h : callSend op data s = .next t) : t = setHost t.h s := by
  unfold callSend at h
  split at h
  · simp at h
  split at h
  · rw [beginSend_eq h]
    rfl
  · simp only [Host.Outcome.next.injEq] at h
    subst h
    rfl

/-- What a call of `send` can do: begin the transfer, or be dropped while a program runs. -/
theorem callSend_cases {op data : Byte} {s t : State} (h : callSend op data s = .next t) :
    s.h.outstanding = false ∧
    (t = s ∨ (s.h.task = .idle ∧
      t = setHost { s.h with
        task := .call op data, result := none, outstanding := true, reqOp := op,
        transfer := .sendOpcode op data } s)) := by
  unfold callSend at h
  split at h
  · simp at h
  rename_i ho
  simp only [Bool.not_eq_true] at ho
  refine ⟨ho, ?_⟩
  split at h
  · rcases beginSend_cases op data (setHost { s.h with task := .call op data, result := none } s) with
      ⟨_, hb⟩ | ⟨_, hb⟩ <;> rw [hb] at h <;> simp at h
    exact .inr ⟨‹_›, h.symm⟩
  · simp only [Host.Outcome.next.injEq] at h
    exact .inl h.symm

/-- What a directly written byte can do: nothing, or be appended to `host_tx`. -/
theorem directWrite_cases {b : Byte} {s t : State} (h : directWrite b s = .next t) :
    t = s ∨
    (s.h.task = .idle ∧ s.hostToDevice.closed = false ∧ s.h.responseOutstanding = false ∧
      t = setHost { s.h with direct := s.h.direct.afterWrite }
        (setLinkRx (s.hostToDevice.queue ++ [b]) s)) := by
  unfold directWrite at h
  rcases hostSend_cases b s.h.direct.afterWrite s with ⟨_, e⟩ | ⟨_, _, e⟩ | ⟨hc, hr, e⟩ <;>
    simp only [e] at h
  · simp only [Host.Outcome.next.injEq] at h
    exact .inl h.symm
  · simp at h
  · split at h <;> simp only [Host.Outcome.next.injEq] at h
    · exact .inr ⟨‹_›, hc, hr, h.symm⟩
    · exact .inl h.symm

/-- What a direct read can do: nothing, notice the end of the channel, or take a byte. -/
theorem directRead_cases (s : State) :
    directRead s = s ∨
    (s.h.task = .idle ∧ directRead s = setHost { s.h with direct := .none } s) ∨
    (∃ b rest, s.h.task = .idle ∧ s.h.direct.clear = false ∧ s.deviceToHost.queue = b :: rest ∧
      directRead s = setHost
        { s.h with
          direct := if s.h.direct = .awaitOpcode then .awaitData else .none
          directIn := s.h.directIn ++ [b] } (setHostRx rest s)) := by
  unfold directRead
  split
  · rename_i hc
    simp only [Bool.and_eq_true, decide_eq_true_eq, Bool.not_eq_true'] at hc
    unfold hostRecv
    cases hcl : s.deviceToHost.closed with
    | true => exact .inr (.inl ⟨hc.1, rfl⟩)
    | false =>
      cases hq : s.deviceToHost.queue with
      | nil => exact .inl rfl
      | cons b rest => exact .inr (.inr ⟨b, rest, hc.1, hc.2, rfl, rfl⟩)
  · exact .inl rfl

/-- No environment step reads or writes the schedule. -/
theorem envStep_schedule {e : Event} {s t : State} (h : envStep e s = .next t) :
    t.script = s.script ∧ t.turns = s.turns := by
  cases e <;> simp only [envStep, Host.Outcome.next.injEq] at h
  case seekDone => subst h; split <;> simp
  case readByte b => subst h; split <;> simp
  case linkFault f => subst h; cases f <;> simp only [applyFault, onChannel] <;> (try split) <;> simp
  case hostConnect r => subst h; split <;> simp
  case callSend op data => rw [callSend_eq h]; simp
  case launch p => subst h; split <;> [(rw [launch_eq]; simp); simp]
  case directWrite b => rcases directWrite_cases h with e | ⟨_, _, _, e⟩ <;> rw [e] <;> simp
  case directRead =>
    subst h
    rcases directRead_cases s with e | ⟨_, e⟩ | ⟨b, rest, _, _, _, e⟩ <;> rw [e] <;> simp
  all_goals
    subst h
    simp

/-- What an environment step can do to the device: the end-of-tape event, a device reset, the completion
of a SEEK or of a DATA poll, or nothing at all; and then the bytes on their way to the host change at most
by a link fault or by the oldest being taken. -/
theorem envStep_cases {e : Event} {s t : State} (h : envStep e s = .next t) :
    (e = .endOfTape ∧ t = eotEvent s) ∨ (e = .deviceReset ∧ t = resetDevice s) ∨
    (e = .seekDone ∧ s.d.mode = .seeking ∧ t = seekDone s) ∨
    (∃ b, e = .readByte b ∧ s.d.mode = .polling ∧ t = answerPoll b s) ∨
    (t.t = s.t ∧ t.d = s.d ∧ t.writeData = s.writeData ∧
      (t.deviceToHost.queue = s.deviceToHost.queue ∨ (∃ f, e = .linkFault f) ∨
        ∃ b, s.deviceToHost.queue = b :: t.deviceToHost.queue)) := by
  cases e <;> simp only [envStep, Host.Outcome.next.injEq] at h
  case endOfTape => exact .inl ⟨rfl, h.symm⟩
  case deviceReset => exact .inr (.inl ⟨rfl, h.symm⟩)
  case seekDone =>
    split at h
    · exact .inr (.inr (.inl ⟨rfl, ‹_›, h.symm⟩))
    · subst h
      simp
  case readByte b =>
    split at h
    · exact .inr (.inr (.inr (.inl ⟨b, rfl, ‹_›, h.symm⟩)))
    · subst h
      simp
  case linkFault f =>
    subst h
    refine .inr (.inr (.inr (.inr ⟨?_, ?_, ?_, .inr (.inl ⟨f, rfl⟩)⟩))) <;>
      (cases f <;> simp only [applyFault, onChannel] <;> (try split) <;> rfl)
  case hostConnect r =>
    subst h
    split <;> simp
  case callSend op data =>
    rw [callSend_eq h]
    simp
  case launch p =>
    subst h
    split
    · rw [launch_eq]
      simp
    · simp
  case directWrite b =>
    rcases directWrite_cases h with e | ⟨_, _, _, e⟩ <;> rw [e] <;> simp
  case directRead =>
    subst h
    rcases directRead_cases s with e | ⟨_, e⟩ | ⟨b, rest, _, _, hq, e⟩ <;> rw [e]
    · simp
    · simp
    · simp [hq]
  all_goals
    subst h
    simp

end Sys2Proof.Laws
end

