-- ==== Sys2Proof/Laws/PerInstr.lean ====
section
/-! SUPPORT. The per-instruction family RowMatch: a well-formed instruction's opcode byte fits the row of
R82's table that carries its mnemonic. -/

namespace Sys2Proof.Laws.RowMatch

/-- The row of the table an instruction stands for. -/
def row : Instr → Row
  | .getStatus _ => .getStatus
  | .setTrack _ => .setTrack
  | .seek _ => .seek
  | .startMotor _ => .startMotor
  | .stopMotor _ => .stopMotor
  | .write _ => .write
  | .startWrite _ => .startWrite
  | .stopWrite _ => .stopWrite
  | .data _ => .data
  | .dataEot _ => .dataEot
  | .resetEot _ => .resetEot
  | .reserved0B _ => .reserved0B
  | .reserved0C0F _ _ => .reserved0C0F
  | .reserved101F _ _ => .reserved101F
  | .reserved203F _ _ => .reserved203F
  | .reserved407F _ _ => .reserved407F
  | .reserved80FF _ _ => .reserved80FF

/-- A well-formed instruction's opcode selects the instruction's row. -/
def Statement (i : Instr) : Prop := i.wf = true → rowOf i.opcode = some (row i)

theorem getStatus (d : Byte) : Statement (.getStatus d) :=
  fun _ => (by decide : rowOf 0x00 = some .getStatus)
theorem setTrack (d : Byte) : Statement (.setTrack d) :=
  fun _ => (by decide : rowOf 0x01 = some .setTrack)
theorem seek (d : Byte) : Statement (.seek d) :=
  fun _ => (by decide : rowOf 0x02 = some .seek)
theorem startMotor (d : Byte) : Statement (.startMotor d) :=
  fun _ => (by decide : rowOf 0x03 = some .startMotor)
theorem stopMotor (d : Byte) : Statement (.stopMotor d) :=
  fun _ => (by decide : rowOf 0x04 = some .stopMotor)
theorem write (d : Byte) : Statement (.write d) :=
  fun _ => (by decide : rowOf 0x05 = some .write)
theorem startWrite (d : Byte) : Statement (.startWrite d) :=
  fun _ => (by decide : rowOf 0x06 = some .startWrite)
theorem stopWrite (d : Byte) : Statement (.stopWrite d) :=
  fun _ => (by decide : rowOf 0x07 = some .stopWrite)
theorem data (d : Byte) : Statement (.data d) :=
  fun _ => (by decide : rowOf 0x08 = some .data)
theorem dataEot (d : Byte) : Statement (.dataEot d) :=
  fun _ => (by decide : rowOf 0x09 = some .dataEot)
theorem resetEot (d : Byte) : Statement (.resetEot d) :=
  fun _ => (by decide : rowOf 0x0A = some .resetEot)
theorem reserved0B (d : Byte) : Statement (.reserved0B d) :=
  fun _ => (by decide : rowOf 0x0B = some .reserved0B)
theorem reserved0C0F (op d : Byte) : Statement (.reserved0C0F op d) := rowOf_reserved0C0F op
theorem reserved101F (op d : Byte) : Statement (.reserved101F op d) := rowOf_reserved101F op
theorem reserved203F (op d : Byte) : Statement (.reserved203F op d) := rowOf_reserved203F op
theorem reserved407F (op d : Byte) : Statement (.reserved407F op d) := rowOf_reserved407F op
theorem reserved80FF (op d : Byte) : Statement (.reserved80FF op d) := rowOf_reserved80FF op

end Sys2Proof.Laws.RowMatch
end

