-- ==== Sys2Proof/Laws/Step.lean ====
section
/-! SUPPORT. What one step of the block can be, said once. -/

namespace Sys2Proof.Laws

open Sys2Proof.Machine Sys2Proof.Safety

/-- One step: the turn that is next, taken in the settled state. -/
theorem step_eq (s : State) : step s = takeTurn (nextTurn s) (settle s) := rfl

/-- A scripted turn is the next one. -/
theorem nextTurn_scripted {s : State} {turn : Turn} {rest : List Turn} (h : s.script = turn :: rest) :
    nextTurn s = turn := by
  simp [nextTurn, h]

/-- A step at the same rate: the turn that is next, taken in the state with the turn off. -/
theorem step_same {s : State} (h : s.line.rate.same = true) :
    step s = takeTurn (nextTurn s) (dropTurn s) := by
  rw [step_eq, settle_same h]

/-- In the Responder's turn the step is the Responder's, if it has one. -/
theorem step_responderTurn {s : State} {o : Host.Outcome State Fault Refusal} (ht : responderTurn s)
    (ho : responderStep (settle s) = some o) : step s = o := by
  rw [step_eq, ht, takeTurn, ho, Option.getD_some]

/-- In the host's turn the step is the host's, if it has one. -/
theorem step_hostTurn {s : State} {o : Host.Outcome State Fault Refusal} (ht : nextTurn s = .host)
    (ho : hostStep (settle s) = some o) : step s = o := by
  rw [step_eq, ht, takeTurn, ho, Option.getD_some]

/-- In an event's turn the step is the event's. -/
theorem step_eventTurn {s : State} {e : Event} (h : eventTurn e s) : step s = envStep e (settle s) := by
  rw [step_eq, h, takeTurn]

/-- A step that answers a next state is the Responder's, the host's, an environment event, or that of an
agent that waits; each in the settled state. -/
theorem step_cases {s t : State} (h : step s = .next t) :
    (responderTurn s ∧ responderStep (settle s) = some (.next t)) ∨
    (nextTurn s = .host ∧ hostStep (settle s) = some (.next t)) ∨
    (∃ e, eventTurn e s ∧ envStep e (settle s) = .next t) ∨
    ((nextTurn s = .responder ∨ nextTurn s = .host) ∧ t = settle s) := by
  rw [step_eq] at h
  cases hn : nextTurn s with
  | responder =>
    rw [hn, takeTurn] at h
    cases hr : responderStep (settle s) with
    | some o =>
      rw [hr, Option.getD_some] at h
      exact .inl ⟨hn, by rw [h]⟩
    | none =>
      rw [hr, Option.getD_none, Host.Outcome.next.injEq] at h
      exact .inr (.inr (.inr ⟨.inl rfl, h.symm⟩))
  | host =>
    rw [hn, takeTurn] at h
    cases hh : hostStep (settle s) with
    | some o =>
      rw [hh, Option.getD_some] at h
      exact .inr (.inl ⟨rfl, by rw [h]⟩)
    | none =>
      rw [hh, Option.getD_none, Host.Outcome.next.injEq] at h
      exact .inr (.inr (.inr ⟨.inr rfl, h.symm⟩))
  | event e =>
    rw [hn, takeTurn] at h
    exact .inr (.inr (.inl ⟨e, hn, h⟩))

/-- A step takes one turn: off the script, or off the free schedule when the script is empty. -/
theorem step_schedule {s t : State} (h : step s = .next t) :
    t.script = s.script.tail ∧ t.turns = if s.script.isEmpty then s.turns + 1 else s.turns := by
  rcases step_cases h with ⟨_, hr⟩ | ⟨_, hh⟩ | ⟨e, _, he⟩ | ⟨_, rfl⟩
  · rcases responderStep_cases hr with ⟨b, rest, _, _, _, ho⟩ | ⟨d, rest, i, _, _, _, _, ho⟩ | ⟨_, _, ho⟩
    · simp only [Host.Outcome.next.injEq] at ho
      subst ho
      simp
    · obtain ⟨_, _, _, _, f5, _, _, _, _, f10⟩ := exec_frame ho.symm
      simp [f5, f10]
    · simp only [Host.Outcome.next.injEq] at ho
      subst ho
      simp [answerPollByLatch_eq]
  · obtain ⟨_, _, _, _, _, a6, a7, _⟩ := hostStep_frame hh
    simp [a6, a7]
  · obtain ⟨a, b⟩ := envStep_schedule he
    simp [a, b]
  · simp

/-- So the turn of step `k` of a run is fixed when the run begins. -/
theorem turnAt_step {s t : State} (h : step s = .next t) (k : Nat) : turnAt k t = turnAt (k + 1) s := by
  obtain ⟨h1, h2⟩ := step_schedule h
  cases hs : s.script with
  | nil => simp [turnAt, h1, h2, hs, Nat.add_assoc, Nat.add_comm 1 k]
  | cons turn rest => simp [turnAt, h1, h2, hs]

/-- The next turn is the turn of step 0. -/
theorem turnAt_zero (s : State) : turnAt 0 s = nextTurn s := by
  cases hs : s.script <;> simp [turnAt, nextTurn, hs]

end Sys2Proof.Laws
end

