-- ==== Sys2Proof/Tests/Slice0.lean ====
section
/-! SUPPORT. Tests: WellFormed refuses ill-formed terms; frames written out bit by bit decode and run to
what the spec's vectors (spec/95_test_vectors.md) give; and, for each statement with hypotheses, a witness
that meets them. -/

namespace Sys2Proof.Tests

open Sys2Proof Sys2Proof.Machine Sys2Proof.Safety

/-! ### Helpers -/

/-- The device in the state tuple `(track, motorOn, ffOn, writeEnabled, eotLatched | tapePresent,
recEnable)` of spec/95, idle between frames. -/
def dev (track : BitVec 2) (motor ff wen eot tape rec : Bool) : State :=
  { State.reset with
    t := { track := track, motorOn := motor, ffOn := ff, writeEnabled := wen, eotLatched := eot }
    sense := { tapePresent := tape, recEnable := rec } }

/-- `s` with a script. -/
def scripted (script : List Turn) (s : State) : State := { s with script := script }

/-- `s` with the Responder in another mode. -/
def inMode (m : Mode) (s : State) : State := { s with d := { s.d with mode := m } }

/-- `s` with bytes on the way to the device. -/
def withRx (bytes : List Byte) (s : State) : State :=
  { s with hostToDevice := { s.hostToDevice with queue := bytes } }

/-- `s` with bytes on the way to the host. -/
def withTx (bytes : List Byte) (s : State) : State :=
  { s with deviceToHost := { s.deviceToHost with queue := bytes } }

/-- `s` with both channels closed. -/
def closed (s : State) : State :=
  { s with
    hostToDevice := { s.hostToDevice with closed := true }
    deviceToHost := { s.deviceToHost with closed := true } }

/-- `s` with the host in the middle of a `send` of a program at a control point. -/
def sending (task : Task) (op : Byte) (transfer : Transfer) (s : State) : State :=
  { s with h := { s.h with task := task, reqOp := op, outstanding := true, transfer := transfer } }

/-- `s` with a program at a control point between two `send` calls. -/
def atTask (task : Task) (s : State) : State := { s with h := { s.h with task := task } }

/-- `s` with a host program's own frame on the channel. -/
def writing (d : DirectFrame) (s : State) : State := { s with h := { s.h with direct := d } }

/-- `s` with the host's end of the line at a rate. -/
def atRate (r : HostRate) (s : State) : State := { s with line := { s.line with rate := r } }

/-- The next state of an outcome. -/
def next? : Host.Outcome State Fault Refusal → Option State
  | .next s => some s
  | .fault _ => none
  | .refused _ => none

/-- What a frame written as one number does when the next step runs it: response bytes and registers. -/
def runs (w : Nat) (s : State) : Option (List Byte × TransportState) :=
  (next? (step (s.withFetchWord 16 w))).map (fun t => (t.deviceToHost.queue, t.t))

/-- The same, with the Responder's mode and the bytes written to tape. -/
def leaves (w : Nat) (s : State) : Option (Mode × List Byte) :=
  (next? (step (s.withFetchWord 16 w))).map (fun t => (t.d.mode, t.writeData))

/-! ### WellFormed smoke (R82) -/

theorem test_wf_reserved0C0F_refuses : (Instr.reserved0C0F 0x10 0x00).wf = false := by decide
theorem test_wf_reserved101F_refuses : (Instr.reserved101F 0x0F 0x00).wf = false := by decide
theorem test_wf_reserved203F_refuses : (Instr.reserved203F 0x40 0x00).wf = false := by decide
theorem test_wf_reserved407F_refuses : (Instr.reserved407F 0x80 0x00).wf = false := by decide
theorem test_wf_reserved80FF_refuses : (Instr.reserved80FF 0x7F 0x00).wf = false := by decide

/-! ### Decoding of frames written from R82's encodings (and R91 on lengths, VC3) -/

theorem test_decode_one_byte_refused : decode [0x05] = .error (.wrongLength 1) := by decide
theorem test_decode_three_bytes_refused : decode [0x05, 0x41, 0x00] = .error (.wrongLength 3) := by decide
theorem test_decode_getStatus : decodeTableWord 16 0b0000000010000001 = some (.getStatus 0x81) := by decide
theorem test_decode_setTrack : decodeTableWord 16 0x0103 = some (.setTrack 0x03) := by decide
theorem test_decode_seek : decodeTableWord 16 0b0000001001111111 = some (.seek 0x7F) := by decide
theorem test_decode_startMotor : decodeTableWord 16 0b0000001101010101 = some (.startMotor 0x55) := by decide
theorem test_decode_stopMotor : decodeTableWord 16 0b0000010000000001 = some (.stopMotor 0x01) := by decide
theorem test_decode_write : decodeTableWord 16 0b0000010101000001 = some (.write 0x41) := by decide
theorem test_decode_startWrite : decodeTableWord 16 0b0000011010000000 = some (.startWrite 0x80) := by decide
theorem test_decode_stopWrite : decodeTableWord 16 0b0000011100000010 = some (.stopWrite 0x02) := by decide
theorem test_decode_data : decodeTableWord 16 0b0000100001011010 = some (.data 0x5A) := by decide
theorem test_decode_dataEot : decodeTableWord 16 0b0000100100000000 = some (.dataEot 0x00) := by decide
theorem test_decode_resetEot : decodeTableWord 16 0b0000101000110011 = some (.resetEot 0x33) := by decide
theorem test_decode_reserved0B : decodeTableWord 16 0b0000101100010010 = some (.reserved0B 0x12) := by decide
theorem test_decode_reserved0C0F :
    decodeTableWord 16 0b0000110000000001 = some (.reserved0C0F 0x0C 0x01) ∧
    decodeTableWord 16 0b0000111100000001 = some (.reserved0C0F 0x0F 0x01) := by decide
theorem test_decode_reserved101F :
    decodeTableWord 16 0b0001000000000001 = some (.reserved101F 0x10 0x01) ∧
    decodeTableWord 16 0b0001111100000001 = some (.reserved101F 0x1F 0x01) := by decide
theorem test_decode_reserved203F :
    decodeTableWord 16 0b0010000000000001 = some (.reserved203F 0x20 0x01) ∧
    decodeTableWord 16 0b0011111100000001 = some (.reserved203F 0x3F 0x01) := by decide
theorem test_decode_reserved407F :
    decodeTableWord 16 0b0100000000000001 = some (.reserved407F 0x40 0x01) ∧
    decodeTableWord 16 0b0111111100000001 = some (.reserved407F 0x7F 0x01) := by decide
theorem test_decode_reserved80FF :
    decodeTableWord 16 0b1000000000000001 = some (.reserved80FF 0x80 0x01) ∧
    decodeTableWord 16 0b1111111111111111 = some (.reserved80FF 0xFF 0xFF) := by decide

/-! ### One step of each command, from the vectors of spec/95 -/

/-- VG5. -/
theorem test_getStatus_clears :
    runs 0x00FF (dev 1 true false false true true true) =
      some ([0x00, 0x0D], { track := 1, motorOn := true, ffOn := false, writeEnabled := false,
                            eotLatched := false }) := by decide
/-- VG7: the latch stays, and the status names no tape. -/
theorem test_getStatus_keeps :
    runs 0x0000 (dev 2 false false true true false false) =
      some ([0x00, 0x06], { track := 2, motorOn := false, ffOn := false, writeEnabled := true,
                            eotLatched := true }) := by decide
/-- VS1. -/
theorem test_setTrack_accepts :
    runs 0x0103 (dev 0 false false false false true true) =
      some ([0x01, 0x03], { track := 3, motorOn := false, ffOn := false, writeEnabled := false,
                            eotLatched := false }) := by decide
/-- VS8 (no masking) and VS5 (the tape moves). -/
theorem test_setTrack_rejects :
    runs 0x0105 (dev 0 false false false false true true) =
      some ([0x01, 0x00], (dev 0 false false false false true true).t) ∧
    runs 0x0100 (dev 2 true false false false true true) =
      some ([0x01, 0x02], (dev 2 true false false false true true).t) := by decide
/-- VK4, the dispatch step. -/
theorem test_seek_starts :
    runs 0x0200 (dev 3 true false true false true true) =
      some ([], { track := 3, motorOn := false, ffOn := true, writeEnabled := true, eotLatched := false }) ∧
    leaves 0x0200 (dev 3 true false true false true true) = some (.seeking, []) := by decide
/-- VK4, the completion. -/
theorem test_seek_completes :
    (next? (step (scripted [.event .seekDone] (inMode .seeking (dev 3 false true true false true true))))).map
        (fun t => (t.t, t.d.mode, t.deviceToHost.queue)) =
      some ((dev 3 false false true false true true).t, .idle, [0x02, 0x00]) := by decide
/-- VM4 and VM2. -/
theorem test_startMotor :
    runs 0x0300 (dev 0 false false true false true true) =
      some ([0x03, 0x01], (dev 0 true false true false true true).t) ∧
    runs 0x0300 (dev 0 true false false false true true) =
      some ([0x03, 0x00], (dev 0 true false false false true true).t) := by decide
/-- VM7 and VM6. -/
theorem test_stopMotor :
    runs 0x0400 (dev 0 true false true false true true) =
      some ([0x04, 0x01], (dev 0 false false true false true true).t) ∧
    runs 0x0400 (dev 0 false false false false true true) =
      some ([0x04, 0x00], (dev 0 false false false false true true).t) := by decide
/-- VW2 and VW4. -/
theorem test_write :
    leaves 0x0542 (dev 0 true false true true true true) = some (.idle, [0x42]) ∧
    leaves 0x0500 (dev 0 false false false true true true) = some (.idle, []) := by decide
/-- VW3 and VW5. -/
theorem test_write_answers_latch :
    runs 0x0543 (dev 0 false false false false true true) =
      some ([0x05, 0x00], (dev 0 false false false false true true).t) ∧
    runs 0x0542 (dev 0 true false true true true true) =
      some ([0x05, 0x01], (dev 0 true false true true true true).t) := by decide
/-- VSW1. -/
theorem test_startWrite_enters :
    runs 0x0600 (dev 0 false false false false true true) =
      some ([0x06, 0x01], (dev 0 true false true false true true).t) := by decide
/-- VSW2, VSW3 and VSW6. -/
theorem test_startWrite_refused :
    runs 0x0600 (dev 0 false false false false false true) =
      some ([0x06, 0x00], (dev 0 false false false false false true).t) ∧
    runs 0x0600 (dev 0 false false false false true false) =
      some ([0x06, 0x00], (dev 0 false false false false true false).t) ∧
    runs 0x0600 (dev 0 false false true false true true) =
      some ([0x06, 0x00], (dev 0 false false true false true true).t) := by decide
/-- VPW1 and VPW2. -/
theorem test_stopWrite :
    runs 0x0700 (dev 0 true false true true true true) =
      some ([0x07, 0x01], (dev 0 false false false true true true).t) ∧
    runs 0x0700 (dev 0 true false false false true true) =
      some ([0x07, 0x00], (dev 0 true false false false true true).t) := by decide
/-- VD4, the dispatch step: the data byte is ignored, nothing is answered. -/
theorem test_data_starts :
    runs 0x085A (dev 0 true false false false true true) =
      some ([], (dev 0 true false false false true true).t) ∧
    leaves 0x085A (dev 0 true false false false true true) = some (.polling, []) := by decide
/-- VD1 and VD2, the completion. -/
theorem test_data_completes :
    (next? (step (scripted [.event (.readByte 0x41)] (inMode .polling (dev 0 true false false false true true))))).map
        (fun t => (t.t.eotLatched, t.d.mode, t.deviceToHost.queue)) = some (false, .idle, [0x08, 0x41]) ∧
    (next? (step (scripted [.event (.readByte 0x43)] (inMode .polling (dev 0 true false false true true true))))).map
        (fun t => (t.t.eotLatched, t.d.mode, t.deviceToHost.queue)) = some (true, .idle, [0x09, 0x43]) := by
  decide
/-- VX1. -/
theorem test_dataEot_is_no_poll :
    runs 0x0900 (dev 0 true false false true true true) =
      some ([0x09, 0x00], (dev 0 true false false true true true).t) ∧
    leaves 0x0900 (dev 0 true false false true true true) = some (.idle, []) := by decide
/-- VR1 and VR2. -/
theorem test_resetEot :
    runs 0x0A00 (dev 0 false false false true true true) =
      some ([0x0A, 0x00], (dev 0 false false false false true true).t) ∧
    runs 0x0A33 (dev 0 false false false false true true) =
      some ([0x0A, 0x00], (dev 0 false false false false true true).t) := by decide
/-- VX2, and one opcode of each later reserved row (VX3, VX4). -/
theorem test_reserved_echo :
    runs 0x0B12 (dev 1 true false true true true true) =
      some ([0x0B, 0x00], (dev 1 true false true true true true).t) ∧
    runs 0x0E01 (dev 1 true false true true true true) =
      some ([0x0E, 0x00], (dev 1 true false true true true true).t) ∧
    runs 0x1302 (dev 1 true false true true true true) =
      some ([0x13, 0x00], (dev 1 true false true true true true).t) ∧
    runs 0x2A03 (dev 1 true false true true true true) =
      some ([0x2A, 0x00], (dev 1 true false true true true true).t) ∧
    runs 0x5504 (dev 1 true false true true true true) =
      some ([0x55, 0x00], (dev 1 true false true true true true).t) ∧
    runs 0xFFFF (dev 1 true false true true true true) =
      some ([0xFF, 0x00], (dev 1 true false true true true true).t) := by decide

/-! ### The Responder's cycle (VC4, VC6) and the host side (E2, R81) -/

theorem test_first_byte_held :
    (next? (step (scripted [.responder] (withRx [0x01] (dev 0 false false false false true true))))).map
        (fun t => (t.d.op, t.d.phase, t.hostToDevice.queue, t.deviceToHost.queue)) =
      some (0x01, .data, [], []) := by decide
theorem test_busy_keeps_byte :
    (next? (step (scripted [.responder] (withRx [0x01] (inMode .seeking (dev 0 false true false false true true)))))).map
        (fun t => (t.d.phase, t.hostToDevice.queue)) = some (.opcode, [0x01]) := by decide
/-- E2: a fabricated response `[03 00]` to GET_STATUS. -/
theorem test_echo_mismatch :
    (next? (takeTurn .host (withTx [0x00] (sending (.call 0x00 0x00) 0x00 (.recvData 0x03) State.reset)))).map
        (fun t => (t.h.result, t.h.outstanding)) =
      some (some (.raised (.echoMismatch 0x00 0x03)), false) := by decide
/-- E2: `[09 43]` answers a DATA poll. -/
theorem test_echo_dataEot :
    (next? (takeTurn .host (withTx [0x43] (sending (.call 0x08 0x00) 0x08 (.recvData 0x09) State.reset)))).map
        (fun t => t.h.result) = some (some (.sendReturned 0x09 0x43)) := by decide
/-- R81: track 4 of the command line is sent as 3. -/
theorem test_commandLine_track :
    (Task.track { baudRate := 9600, track := some 4, seek := false, status := false, read := false,
                  write := false, echo := false }).request = some (0x01, 0x03) := by decide

/-- R264: the third byte before a response, in a `send` after the opcode byte of a host program's own
frame; and R171: a `send` during a `send`. -/
theorem test_second_send_refused :
    step (scripted [.host]
      (writing .awaitOpcode (sending (.call 0x00 0x00) 0x00 (.sendData 0x00) State.reset))) =
      .refused .writeWhileResponseOutstanding ∧
    step (scripted [.event (.callSend 0x00 0x00)]
      (sending (.call 0x05 0x41) 0x05 .recvOpcode State.reset)) = .refused .sendWhileOutstanding := ⟨rfl, rfl⟩
/-- R173, R230 d: on a closed channel the same `send` raises `LinkIO`. -/
theorem test_send_on_closed_channel :
    (next? (step (scripted [.host] (closed
      (writing .awaitOpcode (sending (.call 0x00 0x00) 0x00 (.sendData 0x00) State.reset)))))).map
        (fun t => t.h.result) = some (some (.raised .linkIO)) := by rfl
/-- R199: a syntax error exits as `InvalidArgument` does, with no frame sent. -/
theorem test_syntax_error :
    (next? (step (scripted [.event (.launch .unparsed)] State.reset))).map
        (fun t => (t.h.task, t.h.result, t.h.trace, t.h.result.map exitCode)) =
      some (.idle, some .syntaxError, [], some Config.exitSyntax) := by rfl

/-! ### Witnesses: concrete states and operands that meet a statement's hypotheses

One theorem per statement that has hypotheses, with one line per clause or boundary value. -/

theorem witness_CodecEncodesTwoBytesAndDecodesOnlyTwo :
    codecDecode [0x0A, 0xFF] = some (0x0A, 0xFF) ∧ codecDecode [0x05] = none ∧
    codecDecode [] = none ∧ codecDecode [0x05, 0x41, 0x00] = none := by decide

theorem witness_OpcodeByteSelectsCommand :
    (0x0A : Byte) < 0x0B ∧ decode [0x0B, 0x12] = .ok (.reserved0B 0x12) ∧
    (0x0A : Byte) < 0x0C ∧ decode [0x0C, 0x12] = .ok (.reserved0C0F 0x0C 0x12) ∧
    (0x0A : Byte) < 0xFF ∧ decode [0xFF, 0x12] = .ok (.reserved80FF 0xFF 0x12) := by decide

theorem witness_EveryFrameFitsExactlyOneRow :
    (⟨.resetEot, 0x0A, 0xFF⟩ : TableRow) ∈ opcodeTable ∧
    (⟨.resetEot, 0x0A, 0xFF⟩ : TableRow).fits 0x0A = true ∧
    (⟨.reserved0C0F, 0x0C, 0xFC⟩ : TableRow) ∈ opcodeTable ∧
    (⟨.reserved0C0F, 0x0C, 0xFC⟩ : TableRow).fits 0x0F = true := by decide

theorem witness_DecodeOfEncodeIsIdentity :
    (Instr.write 0x41).wf = true ∧ (Instr.reserved0C0F 0x0C 0x00).wf = true ∧
    (Instr.reserved0C0F 0x0F 0x00).wf = true ∧ (Instr.reserved80FF 0xFF 0xFF).wf = true := by decide

theorem witness_EncodeOfDecodeIsIdentity : decode [0x3F, 0x01] = .ok (.reserved203F 0x3F 0x01) := by decide

theorem witness_DeviceResetKeepsWireAndHost :
    eventTurn .deviceReset (scripted [.event .deviceReset]
      (withRx [0x01] (inMode .seeking (dev 2 false true true true true true)))) := rfl

/-- The last accepted and the first rejected argument, and each kind of motion. -/
theorem witness_SetTrackAcceptsOnlyInRangeAndStationary :
    next? (exec (.setTrack 0x03) (dev 0 false false false false true true)) =
      some (answered 0x01 0x03 (dev 3 false false false false true true)) ∧
    next? (exec (.setTrack 0x04) (dev 2 false false false false true true)) =
      some (answered 0x01 0x02 (dev 2 false false false false true true)) ∧
    next? (exec (.setTrack 0x00) (dev 2 true false false false true true)) =
      some (answered 0x01 0x02 (dev 2 true false false false true true)) ∧
    next? (exec (.setTrack 0x00) (dev 2 false true false false true true)) =
      some (answered 0x01 0x02 (dev 2 false true false false true true)) := by decide

theorem witness_SeekDoneAnswersSeek :
    eventTurn .seekDone (scripted [.event .seekDone] (inMode .seeking State.reset)) ∧
    (inMode .seeking State.reset).d.mode = .seeking ∧ State.reset.d.mode ≠ .seeking :=
  ⟨rfl, rfl, by decide⟩

/-- Both branches: a tape, and each of the three conditions missing. -/
theorem witness_StartWriteNeedsRecordableTape :
    next? (exec (.startWrite 0x00) (dev 0 false false false false true true)) =
      some (answered 0x06 0x01 (dev 0 true false true false true true)) ∧
    next? (exec (.startWrite 0x00) (dev 0 false false true false true true)) =
      some (answered 0x06 0x00 (dev 0 false false true false true true)) ∧
    next? (exec (.startWrite 0x00) (dev 0 false false false false false true)) =
      some (answered 0x06 0x00 (dev 0 false false false false false true)) ∧
    next? (exec (.startWrite 0x00) (dev 0 false false false false true false)) =
      some (answered 0x06 0x00 (dev 0 false false false false true false)) := by decide

theorem witness_ReadByteAnswersPoll :
    eventTurn (.readByte 0x41) (scripted [.event (.readByte 0x41)] (inMode .polling State.reset)) ∧
    (inMode .polling State.reset).d.mode = .polling ∧
    (inMode .polling (dev 0 true false false true true true)).t.eotLatched = true ∧
    (inMode .seeking State.reset).d.mode ≠ .polling :=
  ⟨rfl, rfl, rfl, by decide⟩

theorem witness_LatchAnswersPollWithSomeByte :
    responderTurn (scripted [.responder] (inMode .polling (dev 0 true false false true true true))) ∧
    (inMode .polling (dev 0 true false false true true true)).d.mode = .polling ∧
    (inMode .polling (dev 0 true false false true true true)).t.eotLatched = true ∧
    (inMode .polling State.reset).t.eotLatched = false :=
  ⟨rfl, rfl, rfl, rfl⟩

/-- Opcode 9, the first and the last opcode after 0x0A. -/
theorem witness_ReservedOpcodesOnlyEcho :
    decode [0x09, 0x00] = .ok (.dataEot 0x00) ∧
    (0x0A : Byte) < 0x0B ∧ decode [0x0B, 0x00] = .ok (.reserved0B 0x00) ∧
    (0x0A : Byte) < 0xFF ∧ decode [0xFF, 0x00] = .ok (.reserved80FF 0xFF 0x00) ∧
    decode [0x0A, 0x00] = .ok (.resetEot 0x00) := by decide

/-- A Responder's turn to take the data byte of `[op][data]`, used in several witnesses. -/
def frameIn (op data : Byte) (s : State) : State :=
  { withRx [data] s with d := { phase := .data, op := op, mode := .idle }, script := [.responder] }

theorem frameIn_turn (op data : Byte) (s : State) : responderTurn (frameIn op data s) := rfl

theorem frameIn_arrives (op data : Byte) (s : State) (h : s.line.rate = .baud) :
    frameArrives op data (frameIn op data s) :=
  ⟨rfl, rfl, rfl, by simp [frameIn, withRx, Laws.settle_hostToDevice, Laws.delivered_same, h, HostRate.same]⟩

theorem witness_StepRunsDecodedInstruction :
    responderTurn (frameIn 0x01 0x03 State.reset) ∧ frameArrives 0x01 0x03 (frameIn 0x01 0x03 State.reset) ∧
    decode [0x01, 0x03] = .ok (.setTrack 0x03) :=
  ⟨rfl, frameIn_arrives _ _ _ rfl, by decide⟩

/-- Whatever `P_BAUD` is, some rate is another. -/
theorem other_rate : ∃ r : Config.LineRate, (HostRate.chosen r).same = false := by
  by_cases h : Config.LineRate.b9600 = Config.baud
  · exact ⟨.b4800, decide_eq_false (h ▸ (by decide : Config.LineRate.b4800 ≠ .b9600))⟩
  · exact ⟨.b9600, decide_eq_false h⟩

/-- Both clauses; a line whose rates differ has bytes on neither, one or both channels. -/
theorem witness_LineDeliversBytesAsSentAtTheSameRate :
    SameLineRate State.reset ∧
    ∃ r : Config.LineRate, ¬ SameLineRate (atRate (.chosen r) State.reset) ∧
      ¬ SameLineRate (atRate (.chosen r) (withRx [0x05] (withTx [0x05, 0x00] State.reset))) := by
  obtain ⟨r, h⟩ := other_rate
  exact ⟨rfl, r, by simp [SameLineRate, atRate, h], by simp [SameLineRate, atRate, h]⟩

theorem witness_PlacedFrameRunsInTheNextStep : decode [0x05, 0x41] = .ok (.write 0x41) := by decide

theorem witness_FirstByteOfFrameIsHeld :
    responderTurn (scripted [.responder] (withRx [0x05, 0x41] State.reset)) ∧
    (withRx [0x05, 0x41] State.reset).d.mode = .idle ∧
    (withRx [0x05, 0x41] State.reset).d.phase = .opcode ∧
    (settle (scripted [.responder] (withRx [0x05, 0x41] State.reset))).hostToDevice.queue = 0x05 :: [0x41] :=
  ⟨rfl, rfl, rfl, rfl⟩

/-- Seeking, where the Responder has no step; Polling with the latch set, where it answers; and each of the
four ends of a mode. -/
theorem witness_BusyResponderReadsNoByte :
    (inMode .seeking State.reset).d.mode ≠ .idle ∧
    (∃ t, takeTurn .responder (withRx [0x01] (inMode .seeking State.reset)) = .next t) ∧
    (∃ t, takeTurn .responder (withRx [0x01] (inMode .polling (dev 0 true false false true true true))) =
      .next t) ∧
    (∃ t, step (scripted [.event .deviceReset] (inMode .seeking State.reset)) = .next t ∧ t.d.mode ≠ .seeking) ∧
    (∃ t, step (scripted [.event .seekDone] (inMode .seeking State.reset)) = .next t ∧ t.d.mode ≠ .seeking) ∧
    (∃ t, step (scripted [.event (.readByte 0x00)] (inMode .polling State.reset)) = .next t ∧
      t.d.mode ≠ .polling) ∧
    (∃ t, step (scripted [.responder] (inMode .polling (dev 0 true false false true true true))) = .next t ∧
      t.d.mode ≠ .polling) :=
  ⟨by decide, ⟨_, rfl⟩, ⟨_, rfl⟩, ⟨_, rfl, by decide⟩, ⟨_, rfl, by decide⟩, ⟨_, rfl, by decide⟩,
    ⟨_, rfl, by decide⟩⟩

/-- A response dispatched, a SEEK completed, a poll answered, a byte taken by the host, a link fault. -/
theorem witness_DeviceTransmitsOnlyResponses :
    (∃ t, step (frameIn 0x03 0x00 State.reset) = .next t ∧ t.deviceToHost.queue = [0x03, 0x01]) ∧
    (∃ t, step (scripted [.event .seekDone] (inMode .seeking State.reset)) = .next t ∧
      t.deviceToHost.queue = [0x02, 0x00]) ∧
    (∃ t, step (scripted [.event (.readByte 0x41)] (inMode .polling State.reset)) = .next t ∧
      t.deviceToHost.queue = [0x08, 0x41]) ∧
    (∃ t, step (scripted [.host] (withTx [0x03, 0x01] (sending (.call 0x03 0x00) 0x03 .recvOpcode State.reset))) =
      .next t ∧ t.deviceToHost.queue = [0x01]) ∧
    (∃ t, step (scripted [.event (.linkFault (.drop .deviceToHost 0))] (withTx [0x03, 0x01] State.reset)) =
      .next t ∧ t.deviceToHost.queue = [0x01]) :=
  ⟨⟨_, rfl, by decide⟩, ⟨_, rfl, by decide⟩, ⟨_, rfl, by decide⟩, ⟨_, rfl, by decide⟩, ⟨_, rfl, by decide⟩⟩

/-- A SEEK that starts with the motor on, and a SEEK that ends. -/
theorem witness_MotorAndFastForwardStayExclusive :
    DeviceInv (frameIn 0x02 0x00 (dev 0 true false false false true true)) ∧
    (∃ t, step (frameIn 0x02 0x00 (dev 0 true false false false true true)) = .next t ∧ t.t.ffOn = true) ∧
    DeviceInv (scripted [.event .seekDone] (inMode .seeking (dev 0 false true false false true true))) ∧
    (∃ t, step (scripted [.event .seekDone] (inMode .seeking (dev 0 false true false false true true))) =
      .next t ∧ t.t.ffOn = false) :=
  ⟨⟨by decide, by decide⟩, ⟨_, rfl, by decide⟩, ⟨by decide, by decide⟩, ⟨_, rfl, by decide⟩⟩

theorem witness_TrackChangesOnlyWhileStationary :
    (∃ t, step (frameIn 0x01 0x03 State.reset) = .next t ∧ t.t.track ≠ State.reset.t.track) ∧
    (∃ t, step (scripted [.event .deviceReset] (dev 2 true false false false true true)) = .next t ∧
      t.t.track ≠ (2 : BitVec 2)) :=
  ⟨⟨_, rfl, by decide⟩, ⟨_, rfl, by decide⟩⟩

/-- The sensor; RESET_EOT; GET_STATUS with non-zero data, least and greatest; and a change of the latch. -/
theorem witness_LatchSetBySensorClearedByTwoCommands :
    eventTurn .endOfTape (scripted [.event .endOfTape] State.reset) ∧
    responderTurn (frameIn 0x0A 0x00 State.reset) ∧ frameArrives 0x0A 0x00 (frameIn 0x0A 0x00 State.reset) ∧
    frameArrives 0x00 0x01 (frameIn 0x00 0x01 State.reset) ∧ (0x01 : Byte) ≠ 0x00 ∧
    frameArrives 0x00 0xFF (frameIn 0x00 0xFF State.reset) ∧ (0xFF : Byte) ≠ 0x00 ∧
    (∃ t, step (frameIn 0x00 0x01 (dev 0 false false false true true true)) = .next t ∧
      t.t.eotLatched ≠ true) :=
  ⟨rfl, rfl, frameIn_arrives _ _ _ rfl, frameIn_arrives _ _ _ rfl, by decide, frameIn_arrives _ _ _ rfl,
    by decide, ⟨_, rfl, by decide⟩⟩

theorem witness_OnlyWriteDrivesTheTape :
    (∃ t, step (frameIn 0x05 0x41 (dev 0 true false true false true true)) = .next t ∧
      t.writeData = [0x41]) ∧
    (∃ t, step (frameIn 0x05 0x41 State.reset) = .next t ∧ t.writeData = []) :=
  ⟨⟨_, rfl, by decide⟩, ⟨_, rfl, by decide⟩⟩

/-- The motor started and stopped by each of its commands, write mode begun and ended, and a level changed
while a tape is being written. -/
theorem witness_MotorWriteModeAndSensesChangeOnlyByTheirCauses :
    (∃ t, step (frameIn 0x03 0x00 State.reset) = .next t ∧ t.t.motorOn ≠ false) ∧
    (∃ t, step (frameIn 0x06 0x00 (dev 0 false false false false true true)) = .next t ∧ t.t.motorOn ≠ false ∧
      t.t.writeEnabled ≠ false) ∧
    (∃ t, step (frameIn 0x04 0x00 (dev 0 true false false false true true)) = .next t ∧ t.t.motorOn ≠ true) ∧
    (∃ t, step (frameIn 0x02 0x00 (dev 0 true false false false true true)) = .next t ∧ t.t.motorOn ≠ true) ∧
    (∃ t, step (frameIn 0x07 0x00 (dev 0 true false true false true true)) = .next t ∧ t.t.motorOn ≠ true ∧
      t.t.writeEnabled ≠ true) ∧
    ¬ eventTurn .deviceReset (frameIn 0x03 0x00 State.reset) ∧
    eventTurn (.tapePresent false) (scripted [.event (.tapePresent false)] (dev 0 true false true false true true)) ∧
    (∃ t, step (scripted [.event (.tapePresent false)] (dev 0 true false true false true true)) = .next t ∧
      t.sense ≠ { tapePresent := true, recEnable := true }) ∧
    eventTurn (.recEnable true) (scripted [.event (.recEnable true)] State.reset) :=
  ⟨⟨_, rfl, by decide⟩, ⟨_, rfl, by decide, by decide⟩, ⟨_, rfl, by decide⟩, ⟨_, rfl, by decide⟩,
    ⟨_, rfl, by decide, by decide⟩, by simp [eventTurn, frameIn, withRx, nextTurn], rfl, ⟨_, rfl, by decide⟩, rfl⟩

theorem witness_RepeatedCommandsChangeNothingMore :
    (∃ a, exec (.startMotor 0x00) State.reset = .next a) ∧ (∃ a, exec (.setTrack 0x03) State.reset = .next a) :=
  ⟨⟨_, rfl⟩, ⟨_, rfl⟩⟩

/-- The three commands left out read or clear the latch; the others, SEEK and DATA among them, are in. -/
theorem witness_EotEventCommutesWithOtherCommands :
    (match Instr.seek 0x00 with
      | .getStatus _ => False | .write _ => False | .resetEot _ => False | _ => True) ∧
    (match Instr.data 0x00 with
      | .getStatus _ => False | .write _ => False | .resetEot _ => False | _ => True) :=
  ⟨trivial, trivial⟩

theorem witness_ClearingStatusLosesNoEvent : (0x01 : Byte) ≠ 0x00 ∧ (0xFF : Byte) ≠ 0x00 := by decide

theorem witness_SidesShareOnlyTheLink :
    (∃ t, takeTurn .host (sending (.call 0x05 0x41) 0x05 (.sendOpcode 0x05 0x41) State.reset) = .next t ∧
      t.hostToDevice.queue = [0x05]) ∧
    (∃ t, takeTurn .responder (frameIn 0x05 0x41 State.reset) = .next t ∧
      t.deviceToHost.queue = [0x05, 0x00]) :=
  ⟨⟨_, rfl, by decide⟩, ⟨_, rfl, by decide⟩⟩

/-- A matching response, a poll answered DATA_EOT, and a mismatch: of a call, of a tape check, in either
loop, in a cleanup and in a send of the command line. -/
theorem witness_EchoCheckAcceptsOnlyTheRequestsOpcode :
    (sending (.call 0x05 0x41) 0x05 (.recvData 0x05) State.reset).h.transfer = .recvData 0x05 ∧
    (withTx [0x00] (sending (.call 0x05 0x41) 0x05 (.recvData 0x05) State.reset)).deviceToHost.closed = false ∧
    (withTx [0x00] (sending (.call 0x05 0x41) 0x05 (.recvData 0x05) State.reset)).deviceToHost.queue =
      0x00 :: [] ∧
    (sending (.call 0x08 0x00) 0x08 (.recvData 0x09) State.reset).h.transfer = .recvData 0x09 ∧
    (sending (.call 0x00 0x00) 0x00 (.recvData 0x03) State.reset).h.task = .call 0x00 0x00 ∧
    (sending .readCheck 0x00 (.recvData 0x03) State.reset).h.task = .readCheck ∧
    (sending .readPoll 0x08 (.recvData 0x00) State.reset).h.task = .readPoll ∧
    (sending (.writeByte 0x41) 0x05 (.recvData 0x07) State.reset).h.task = .writeByte 0x41 ∧
    (sending (.readCleanup (.ended .normal)) 0x04 (.recvData 0x03) State.reset).h.task =
      .readCleanup (.ended .normal) ∧
    ¬ ((0x03 : Byte) = 0x00 ∨ ((0x00 : Byte) = 0x08 ∧ (0x03 : Byte) = 0x09)) := by decide

/-- The four places a `send` can find the channel closed, in a call, a read loop, a write loop and a cleanup. -/
theorem witness_ClosedChannelRaisesLinkIO :
    (closed (sending (.call 0x05 0x41) 0x05 (.sendOpcode 0x05 0x41) State.reset)).hostToDevice.closed = true ∧
    (closed (sending (.call 0x05 0x41) 0x05 (.sendOpcode 0x05 0x41) State.reset)).h.transfer =
      .sendOpcode 0x05 0x41 ∧
    (closed (sending .readPoll 0x08 (.sendData 0x00) State.reset)).h.transfer = .sendData 0x00 ∧
    (closed (sending (.writeByte 0x41) 0x05 .recvOpcode State.reset)).deviceToHost.closed = true ∧
    (closed (sending (.writeByte 0x41) 0x05 .recvOpcode State.reset)).h.transfer = .recvOpcode ∧
    (closed (sending (.writeCleanup (.ended .exhausted)) 0x07 (.recvData 0x07) State.reset)).h.transfer =
      .recvData 0x07 := by decide

/-- A `send` during a `send`; a byte of a `send` and a byte of its own while a host program's frame is not
answered; such a byte on a closed channel; and a `send` after its opcode byte. -/
theorem witness_SecondSendIsRefused :
    eventTurn (.callSend 0x00 0x00) (scripted [.event (.callSend 0x00 0x00)]
      (sending (.call 0x05 0x41) 0x05 .recvOpcode State.reset)) ∧
    (sending (.call 0x05 0x41) 0x05 .recvOpcode State.reset).h.outstanding = true ∧
    nextTurn (scripted [.host]
      (writing .awaitData (sending (.call 0x05 0x41) 0x05 (.sendOpcode 0x05 0x41) State.reset))) = .host ∧
    (writing .awaitOpcode (sending (.call 0x05 0x41) 0x05 (.sendData 0x41) State.reset)).h.transfer =
      .sendData 0x41 ∧
    (writing .awaitData (sending (.call 0x05 0x41) 0x05 (.sendOpcode 0x05 0x41) State.reset)).h.direct =
      .awaitData ∧
    eventTurn (.directWrite 0x00) (scripted [.event (.directWrite 0x00)] (writing .awaitOpcode State.reset)) ∧
    (writing .awaitOpcode State.reset).h.direct = .awaitOpcode ∧
    (writing .awaitOpcode State.reset).hostToDevice.closed = false ∧
    (sending (.call 0x05 0x41) 0x05 (.recvData 0x05) State.reset).h.transfer = .recvData 0x05 ∧
    (closed (writing .awaitData State.reset)).hostToDevice.closed = true ∧
    (writing .opcodeSent (sending (.call 0x05 0x41) 0x05 (.sendOpcode 0x05 0x41) State.reset)).h.transfer =
      .sendOpcode 0x05 0x41 ∧
    (writing .opcodeSent (sending (.call 0x05 0x41) 0x05 (.sendOpcode 0x05 0x41) State.reset)).h.direct =
      .opcodeSent :=
  ⟨rfl, rfl, rfl, rfl, rfl, rfl, rfl, rfl, rfl, rfl, rfl, rfl⟩

/-- A `send` that waits for its response meets the host invariant. -/
theorem hostInv_waiting : HostInv (sending (.call 0x05 0x41) 0x05 .recvOpcode State.reset).h :=
  ⟨by decide, fun _ => ⟨0x41, rfl, trivial⟩⟩

/-- A `send` during a `send`; then a byte written while it waits, and with a host program's own frame not
answered either byte of a `send` and a byte written. -/
theorem witness_OnlyHostProtocolErrorsAreRefused :
    HostInv (scripted [.event (.callSend 0x00 0x00)]
      (sending (.call 0x05 0x41) 0x05 .recvOpcode State.reset)).h ∧
    step (scripted [.event (.callSend 0x00 0x00)]
      (sending (.call 0x05 0x41) 0x05 .recvOpcode State.reset)) = .refused .sendWhileOutstanding ∧
    step (scripted [.event (.directWrite 0x00)]
      (sending (.call 0x05 0x41) 0x05 .recvOpcode State.reset)) = .refused .writeWhileResponseOutstanding ∧
    HostInv (writing .awaitData (sending (.call 0x05 0x41) 0x05 (.sendOpcode 0x05 0x41) State.reset)).h ∧
    step (scripted [.host]
      (writing .awaitData (sending (.call 0x05 0x41) 0x05 (.sendOpcode 0x05 0x41) State.reset))) =
      .refused .writeWhileResponseOutstanding ∧
    HostInv (writing .awaitOpcode (sending .readCheck 0x00 (.sendData 0x01) State.reset)).h ∧
    step (scripted [.host] (writing .awaitOpcode (sending .readCheck 0x00 (.sendData 0x01) State.reset))) =
      .refused .writeWhileResponseOutstanding ∧
    HostInv (writing .awaitData State.reset).h ∧
    step (scripted [.event (.directWrite 0x00)] (writing .awaitData State.reset)) =
      .refused .writeWhileResponseOutstanding :=
  ⟨hostInv_waiting, rfl, rfl, ⟨by decide, fun _ => ⟨0x41, rfl, rfl, rfl⟩⟩, rfl,
    ⟨by decide, fun _ => ⟨0x01, rfl, rfl⟩⟩, rfl, ⟨by decide, fun h => absurd rfl h⟩, rfl⟩

/-- Both receives; both waits, in the host's turn and in another. -/
theorem witness_ReceiveHasNoTimeout :
    (sending (.call 0x05 0x41) 0x05 .recvOpcode State.reset).deviceToHost.closed = false ∧
    (sending (.call 0x05 0x41) 0x05 .recvOpcode State.reset).deviceToHost.queue = [] ∧
    (sending (.call 0x05 0x41) 0x05 .recvOpcode State.reset).h.transfer = .recvOpcode ∧
    (sending (.call 0x05 0x41) 0x05 (.recvData 0x05) State.reset).h.transfer = .recvData 0x05 ∧
    (atTask .readWait State.reset).h.transfer = .none ∧ (atTask .readWait State.reset).h.task = .readWait ∧
    (atTask .writeSettle State.reset).h.task = .writeSettle ∧
    nextTurn (scripted [.responder] (atTask .readWait State.reset)) ≠ .host ∧
    ¬ eventTurn .processStart (scripted [.responder] (atTask .readWait State.reset)) ∧
    (∃ t, step (scripted [.responder] (atTask .readWait State.reset)) = .next t) :=
  ⟨rfl, rfl, rfl, rfl, rfl, rfl, rfl, by simp [nextTurn, scripted], by simp [eventTurn, nextTurn, scripted],
    ⟨_, rfl⟩⟩

theorem witness_CancellationCannotInterruptSend :
    eventTurn .cancel (scripted [.event .cancel] State.reset) ∧
    (sending .readPoll 0x08 .recvOpcode State.reset).h.transfer ≠ .none :=
  ⟨rfl, by decide⟩

theorem witness_OutstandingRequestMatchesProgram :
    HostInv (withTx [0x05] (sending (.call 0x05 0x41) 0x05 .recvOpcode State.reset)).h ∧
    (∃ t, step (scripted [.host] (withTx [0x05] (sending (.call 0x05 0x41) 0x05 .recvOpcode State.reset))) =
      .next t ∧ t.h.transfer = .recvData 0x05) :=
  ⟨hostInv_waiting, ⟨_, rfl, rfl⟩⟩

/-- A device whose link is quiet. -/
theorem quiet_dev (track : BitVec 2) (script : List Turn) :
    Quiet (scripted script (dev track false false false false true true)) :=
  ⟨⟨rfl, rfl⟩, ⟨rfl, rfl⟩, rfl, rfl, rfl, rfl, rfl, rfl, rfl⟩

/-- A command that answers in one step, and a SEEK. -/
theorem witness_SendReturnsTheCommandsResponse :
    Quiet (scripted [.event (.callSend 0x01 0x03), .host, .responder, .host, .responder, .host, .host]
      (dev 0 false false false false true true)) ∧
    (0x01 : Byte) ≠ 0x02 ∧ (0x01 : Byte) ≠ 0x08 ∧ decode [0x01, 0x03] = .ok (.setTrack 0x03) ∧
    Quiet (scripted [.event (.callSend 0x02 0x00), .host, .responder, .host, .responder, .event .seekDone,
      .host, .host] (dev 0 false false false false true true)) :=
  ⟨quiet_dev _ _, by decide, by decide, by decide, quiet_dev _ _⟩

theorem witness_PollReturnsThePresentedByte :
    Quiet (scripted [.event (.callSend 0x08 0x5A), .host, .responder, .host, .responder,
      .event (.readByte 0x41), .host, .host] (dev 0 false false false false true true)) :=
  quiet_dev _ _

/-- A whole response on its way back to a waiting `send` meets the link invariant. -/
theorem linkInv_waiting (script : List Turn) :
    LinkInv (scripted script
      (withTx [0x05, 0x00] (sending (.call 0x05 0x41) 0x05 .recvOpcode State.reset))) where
  sound := ⟨rfl, rfl, rfl, fun _ _ h => by simp [scripted, withTx, sending] at h⟩
  direct := rfl
  host := hostInv_waiting
  frame := ⟨0x41, rfl, .inr (.inr (.inr (.inr ⟨⟨rfl, rfl⟩, rfl, 0x05, 0x00, rfl,
    (by decide : (0x05 : Byte) ∈ accept 0x05)⟩)))⟩
  noError := ⟨by simp [scripted, withTx, sending, State.reset, HostState.reset],
    by simp [scripted, withTx, sending], by simp [scripted, withTx, sending]⟩

theorem witness_ReliableLinkKeepsOneFrameInFlight :
    LinkInv (scripted [.host]
      (withTx [0x05, 0x00] (sending (.call 0x05 0x41) 0x05 .recvOpcode State.reset))) ∧
    faultFree .host = true ∧ undisturbing .host = true ∧
    (∃ t, step (scripted [.host]
        (withTx [0x05, 0x00] (sending (.call 0x05 0x41) 0x05 .recvOpcode State.reset))) = .next t ∧
      t.h.transfer = .recvData 0x05) :=
  ⟨linkInv_waiting _, rfl, rfl, ⟨_, rfl, rfl⟩⟩

/-- The turns of a read loop's tape check. -/
def tapeCheck : List Turn :=
  [.event (.launch .readLoop), .host, .host, .responder, .host, .responder, .host, .host]

/-- A run that ends with a host error, `NoTape`, which the statement allows: eight steps of a read loop
with no tape present. -/
theorem witness_ReliableRunsRaiseNoLinkError :
    LinkReliable 8 { State.reset with script := tapeCheck } ∧
    Undisturbed 8 { State.reset with script := tapeCheck } ∧
    (∃ t, Sys2Proof.core.run 8 { State.reset with script := tapeCheck } = .next t ∧
      t.h.result = some (.raised .noTape)) := by
  refine ⟨⟨⟨rfl, rfl, rfl, fun _ _ h => by simp [State.reset, HostState.reset] at h⟩, fun i hi => ?_⟩,
    fun i hi => ?_, ⟨_, rfl, by decide⟩⟩
  all_goals
    have : i = 0 ∨ i = 1 ∨ i = 2 ∨ i = 3 ∨ i = 4 ∨ i = 5 ∨ i = 6 ∨ i = 7 := by omega
    rcases this with h | h | h | h | h | h | h | h <;> subst h <;> rfl

/-- Between two sends, at each control point that sends a fixed frame. -/
theorem betweenSends_reset (task : Task) : betweenSends (atTask task State.reset) := ⟨rfl, rfl⟩

/-- Both loops, a status with no tape (0x04) and one with a tape (0x08), and both start commands with
either result. -/
theorem witness_TapeCheckFailsBeforeAnyMotion :
    betweenSends (atTask .readCheck State.reset) ∧ betweenSends (atTask .writeStart State.reset) ∧
    (withTx [0x04] (sending .readCheck 0x00 (.recvData 0x00) State.reset)).h.task = .readCheck ∧
    (sending .writeCheck 0x00 (.recvData 0x00) State.reset).h.task = .writeCheck ∧
    (sending .readCheck 0x00 (.recvData 0x00) State.reset).h.transfer = .recvData 0x00 ∧
    (sending .readCheck 0x00 (.recvData 0x00) State.reset).h.reqOp = 0x00 ∧
    (withTx [0x04] (sending .readCheck 0x00 (.recvData 0x00) State.reset)).deviceToHost.closed = false ∧
    (withTx [0x04] (sending .readCheck 0x00 (.recvData 0x00) State.reset)).deviceToHost.queue = 0x04 :: [] ∧
    (0x04 : Byte).getLsbD 3 = false ∧ (0x08 : Byte).getLsbD 3 = true ∧
    (withTx [0x00] (sending .readStart 0x03 (.recvData 0x03) State.reset)).deviceToHost.queue = 0x00 :: [] ∧
    (sending .writeStart 0x06 (.recvData 0x06) State.reset).h.transfer = .recvData 0x06 :=
  ⟨betweenSends_reset _, betweenSends_reset _, by decide, by decide, by decide, by decide, by decide, by decide,
    by decide, by decide, by decide, by decide⟩

theorem witness_ReadLoopDeliversEveryPolledByte :
    betweenSends (atTask .readPoll State.reset) ∧
    (sending .readPoll 0x08 (.recvData 0x08) State.reset).h.task = .readPoll ∧
    (sending .readPoll 0x08 (.recvData 0x08) State.reset).h.transfer = .recvData 0x08 ∧
    (sending .readPoll 0x08 (.recvData 0x09) State.reset).h.transfer = .recvData 0x09 ∧
    (sending .readPoll 0x08 (.recvData 0x09) State.reset).h.reqOp = 0x08 ∧
    (withTx [0x43] (sending .readPoll 0x08 (.recvData 0x09) State.reset)).deviceToHost.closed = false ∧
    (withTx [0x43] (sending .readPoll 0x08 (.recvData 0x09) State.reset)).deviceToHost.queue = 0x43 :: [] :=
  ⟨betweenSends_reset _, rfl, rfl, rfl, rfl, rfl, rfl⟩

theorem witness_WriteLoopEchoesAndStopsAtEndOfTape :
    betweenSends (atTask (.writeByte 0x30) State.reset) ∧
    (sending (.writeByte 0x30) 0x05 (.recvData 0x05) State.reset).h.task = .writeByte 0x30 ∧
    (sending (.writeByte 0x30) 0x05 (.recvData 0x05) State.reset).h.transfer = .recvData 0x05 ∧
    (sending (.writeByte 0x30) 0x05 (.recvData 0x05) State.reset).h.reqOp = 0x05 ∧
    (withTx [0x01] (sending (.writeByte 0x30) 0x05 (.recvData 0x05) State.reset)).deviceToHost.closed = false ∧
    (withTx [0x01] (sending (.writeByte 0x30) 0x05 (.recvData 0x05) State.reset)).deviceToHost.queue =
      0x01 :: [] :=
  ⟨betweenSends_reset _, rfl, rfl, rfl, rfl, rfl⟩

/-- The top of each loop, cancelled and not, with and without input left. -/
theorem witness_CancelledLoopGoesToCleanup :
    (atTask .readTop State.reset).h.transfer = .none ∧ (atTask .readTop State.reset).h.task = .readTop ∧
    (atTask .writeTop State.reset).h.task = .writeTop ∧ (atTask .writeTop State.reset).h.cancel = false ∧
    (atTask .writeTop State.reset).h.source = [] ∧
    (freshRun [0x10, 0x20] false .writeTop HostState.reset).source = 0x10 :: [0x20] ∧
    (∃ t, step (scripted [.event .cancel] (atTask .writeTop State.reset)) = .next t ∧ t.h.cancel = true ∧
      t.h.task = .writeTop) ∧
    betweenSends (atTask (.readCleanup (.ended .cancelled)) State.reset) ∧
    betweenSends (atTask (.writeCleanup (.raised .linkIO)) State.reset) :=
  ⟨rfl, rfl, rfl, rfl, rfl, rfl, ⟨_, rfl, rfl, rfl⟩, betweenSends_reset _, betweenSends_reset _⟩

/-- A read loop's poll that meets a closed channel, and a cleanup whose response arrives. -/
theorem witness_LoopIsLeftOnlyThroughCleanup :
    HostInv (scripted [.host] (closed (sending .readPoll 0x08 .recvOpcode State.reset))).h ∧
    (∃ t, step (scripted [.host] (closed (sending .readPoll 0x08 .recvOpcode State.reset))) = .next t ∧
      t.h.task = .readCleanup (.raised .linkIO)) ∧
    ¬ eventTurn .processStart (scripted [.host] (closed (sending .readPoll 0x08 .recvOpcode State.reset))) ∧
    HostInv (withTx [0x01] (sending (.writeCleanup (.ended .endOfTape)) 0x07 (.recvData 0x07) State.reset)).h ∧
    (∃ t, step (scripted [.host] (withTx [0x01]
        (sending (.writeCleanup (.ended .endOfTape)) 0x07 (.recvData 0x07) State.reset))) = .next t ∧
      t.h.task = .idle) :=
  ⟨⟨by decide, fun _ => ⟨0x00, rfl, trivial⟩⟩, ⟨_, rfl, rfl⟩, by simp [eventTurn, nextTurn, scripted],
    ⟨by decide, fun _ => ⟨0x00, rfl, trivial⟩⟩, ⟨_, rfl, rfl⟩⟩

/-- A read loop whose cleanup has been sent, and the state its response leaves. -/
def cleaned : State :=
  withTx [0x01]
    (sending (.readCleanup (.ended .normal)) 0x04 (.recvData 0x04)
      { State.reset with h := { HostState.reset with trace := [.request 0x04 0x00] } })

theorem witness_EndedLoopHasSentOneCleanup :
    CleanupInv cleaned.h ∧
    (∃ t, step (scripted [.host] cleaned) = .next t ∧ t.h.task = .idle ∧ t.h.result = some (.loopEnded .normal)) :=
  ⟨⟨⟨by decide, fun _ => ⟨0x00, rfl, trivial⟩⟩, by
      show cleanups cleaned.h = requestsDone cleaned.h.transfer
      decide⟩, ⟨_, rfl, rfl, rfl⟩⟩

/-- Both cleanups, after a normal end and after an error: with the response, with the response of another
request, and with the channel closed at each of the four bytes. -/
theorem witness_FirstErrorWinsOverCleanupError :
    cleaned.h.task = .readCleanup (.ended .normal) ∧ cleaned.h.transfer = .recvData cleaned.h.reqOp ∧
    cleaned.deviceToHost.closed = false ∧ cleaned.deviceToHost.queue = 0x01 :: [] ∧
    (sending (.readCleanup (.ended .normal)) 0x04 (.recvData 0x03) State.reset).h.transfer = .recvData 0x03 ∧
    (0x03 : Byte) ≠ 0x04 ∧ (0x04 : Byte) ≠ 0x08 ∧
    (closed (sending (.writeCleanup (.raised (.echoMismatch 0x05 0x07))) 0x07 .recvOpcode State.reset)).h.task =
      .writeCleanup (.raised (.echoMismatch 0x05 0x07)) ∧
    (closed (sending (.writeCleanup (.raised .linkIO)) 0x07 (.sendOpcode 0x07 0x00) State.reset)).h.transfer =
      .sendOpcode 0x07 0x00 ∧
    (closed (sending (.writeCleanup (.raised .linkIO)) 0x07 (.sendData 0x00) State.reset)).h.transfer =
      .sendData 0x00 ∧
    (closed (sending (.writeCleanup (.raised .linkIO)) 0x07 .recvOpcode State.reset)).h.transfer = .recvOpcode ∧
    (closed (sending (.readCleanup (.ended .normal)) 0x04 (.recvData 0x04) State.reset)).h.transfer =
      .recvData 0x04 ∧
    (closed (sending (.writeCleanup (.raised .linkIO)) 0x07 .recvOpcode State.reset)).hostToDevice.closed =
      true ∧
    (closed (sending (.writeCleanup (.raised .linkIO)) 0x07 .recvOpcode State.reset)).deviceToHost.closed =
      true := by decide

/-- A command line's arguments. -/
def args (baud : Nat) (track : Option Nat) (read write : Bool) : Args :=
  { baudRate := baud, track := track, seek := false, status := false, read := read, write := write,
    echo := false }

/-- The task and the result a command line starts with, from reset. -/
def launched (a : Args) : Option (Task × Option RunResult) :=
  (next? (step (scripted [.event (.launch (.commandLine a []))] State.reset))).map
    (fun t => (t.h.task, t.h.result))

/-- Tracks 0, 1, 4 and 5, an unsupported rate, and both modes. -/
theorem witness_InvalidArgumentBeforeTheLinkOpens :
    eventTurn (.launch (.commandLine (args 9600 (some 1) true false) []))
      (scripted [.event (.launch (.commandLine (args 9600 (some 1) true false) []))] State.reset) ∧
    State.reset.h.task = .idle ∧
    launched (args 9600 (some 1) true false) = some (.openLink .b9600 (args 9600 (some 1) true false), none) ∧
    launched (args 115200 (some 4) false true) =
      some (.openLink .b115200 (args 115200 (some 4) false true), none) ∧
    launched (args 9600 (some 0) true false) = some (.idle, some (.raised (.invalidArgument (.track 0)))) ∧
    launched (args 9600 (some 5) true false) = some (.idle, some (.raised (.invalidArgument (.track 5)))) ∧
    launched (args 300 none true false) = some (.idle, some (.raised (.invalidArgument (.baudRate 300)))) ∧
    launched (args 9600 none true true) = some (.idle, some (.raised (.invalidArgument .bothModes))) ∧
    eventTurn (.launch .unparsed) (scripted [.event (.launch .unparsed)] State.reset) :=
  ⟨rfl, rfl, by decide, by decide, by decide, by decide, by decide, by decide, rfl⟩

/-- Every control point of the command line, each option given and left out; the responses to its sends. -/
theorem witness_CommandLineSendsItsFramesInOrder :
    betweenSends (atTask (.openLink .b9600 (args 9600 (some 4) true false)) State.reset) ∧
    (args 9600 (some 4) true false).track = some 4 ∧ (args 9600 none true false).track = none ∧
    betweenSends (atTask (.track (args 9600 (some 4) true false)) State.reset) ∧
    betweenSends (atTask (.seek (args 9600 none true false)) State.reset) ∧
    betweenSends (atTask (.status (args 9600 none true false)) State.reset) ∧
    betweenSends (atTask (.modes (args 9600 none false true)) State.reset) ∧
    (sending (.track (args 9600 (some 4) true false)) 0x01 (.recvData 0x01) State.reset).h.transfer =
      .recvData 0x01 ∧
    (sending (.status (args 9600 none true false)) 0x00 (.recvData 0x00) State.reset).h.task =
      .status (args 9600 none true false) ∧
    (withTx [0x0D] (sending (.status (args 9600 none true false)) 0x00 (.recvData 0x00)
      State.reset)).deviceToHost.queue = 0x0D :: [] ∧
    (withTx [0x0D] State.reset).deviceToHost.closed = false :=
  ⟨betweenSends_reset _, rfl, rfl, betweenSends_reset _, betweenSends_reset _, betweenSends_reset _,
    betweenSends_reset _, rfl, rfl, rfl, rfl⟩

end Sys2Proof.Tests
end

section
/-! The end-of-tape latch (R25): what sets it, what clears it, and that nothing else touches it. -/

namespace Sys2Proof.Proofs

open Sys2Proof.Machine Sys2Proof.Safety Sys2Proof.Laws

/-- A frame whose data byte arrives in the Responder's turn is executed in that very step (R93, R94). -/
theorem step_frameArrives {op data : Byte} {s : State} {i : Instr} (ht : responderTurn s)
    (ha : frameArrives op data s) (hd : decode [op, data] = .ok i) :
    ∃ rest, step s = exec i (completeFrame (setLinkRx rest (settle s))) := by
  obtain ⟨hm, hp, rfl, hq⟩ := ha
  obtain ⟨rest, hq⟩ := List.head?_eq_some_iff.mp hq
  refine ⟨rest, step_responderTurn ht ?_⟩
  have hr : recvByte (settle s) = some (data, setLinkRx rest (settle s)) := by rw [recvByte, hq]
  simp [responderStep, receiveByte, hm, hp, hr, dispatch, codecEncode, hd]

/-- A command of the Responder's that changes the latch is RESET_EOT or a clearing GET_STATUS. -/
theorem responderStep_latch {s t : State} (h : responderStep (settle s) = some (.next t))
    (hl : t.t.eotLatched ≠ s.t.eotLatched) :
    ∃ data : Byte, frameArrives 0x0A data s ∨ (frameArrives 0x00 data s ∧ data ≠ 0x00) := by
  rcases responderStep_cases h with ⟨b, rest, _, _, _, ho⟩ | ⟨data, rest, i, hm, hp, hq, hd, ho⟩ | ⟨_, _, ho⟩
  · cases ho
    simp at hl
  · obtain ⟨hop, hdata⟩ := decode_bytes hd
    have arrives : frameArrives i.opcode data s := ⟨hm, hp, hop.symm, by rw [hq, List.head?_cons]⟩
    obtain ⟨-, latch, -, -⟩ := exec_effects ho.symm
    obtain ⟨d, rfl | ⟨rfl, hne⟩⟩ := latch (by simpa using hl)
    · exact ⟨data, .inl arrives⟩
    · exact ⟨data, .inr ⟨arrives, hdata ▸ hne⟩⟩
  · cases ho
    simp [answerPollByLatch_eq] at hl

/-- An environment step that changes the latch is the sensor's or a device reset. -/
theorem envStep_latch {e : Event} {s t : State} (h : envStep e s = .next t)
    (hl : t.t.eotLatched ≠ s.t.eotLatched) : e = .endOfTape ∨ e = .deviceReset := by
  rcases envStep_cases h with ⟨he, _⟩ | ⟨he, _⟩ | ⟨_, _, rfl⟩ | ⟨b, _, _, rfl⟩ | ⟨ht, _⟩
  · exact .inl he
  · exact .inr he
  · simp at hl
  · simp at hl
  · rw [ht] at hl
    exact absurd rfl hl

/-- RESET_EOT, and GET_STATUS with non-zero data, answer a state with the latch clear. -/
theorem step_clears_latch {s : State} {data : Byte} (ht : responderTurn s)
    (ha : frameArrives 0x0A data s ∨ (frameArrives 0x00 data s ∧ data ≠ 0x00)) :
    ∃ t : State, step s = .next t ∧ t.t.eotLatched = false := by
  obtain ha | ⟨ha, hne⟩ := ha
  · obtain ⟨rest, h⟩ := step_frameArrives ht ha (decode_of_row data (by decide : rowOf 0x0A = some .resetEot))
    exact ⟨_, h, rfl⟩
  · obtain ⟨rest, h⟩ := step_frameArrives ht ha (decode_of_row data (by decide : rowOf 0x00 = some .getStatus))
    have flag : operandFlag data = true := decide_eq_true hne
    exact ⟨_, h, by simp [flag]⟩

/-- Settles O32: the two causing clauses by running the event and the commands, the last one by the
cases of a step, of which only the Responder's and the environment's can touch `T`. -/
theorem latchSetBySensorClearedByTwoCommands : Obligations.LatchSetBySensorClearedByTwoCommands := by
  refine ⟨fun s hs => ⟨_, step_eventTurn hs, rfl⟩, fun s data ht ha => step_clears_latch ht ha, ?_⟩
  intro s t h hl
  rcases step_cases h with ⟨ht, hr⟩ | ⟨_, hh⟩ | ⟨e, ht, he⟩ | ⟨_, rfl⟩
  · exact .inr (.inr ⟨ht, responderStep_latch hr hl⟩)
  · rw [(hostStep_frame hh).1] at hl
    exact absurd rfl hl
  · obtain rfl | rfl := envStep_latch he hl
    · exact .inl ht
    · exact .inr (.inl ht)
  · exact absurd rfl hl

end Sys2Proof.Proofs
end

section
/-! The opcode table (R73): the numbered commands by their bytes, the rest by the reserved ranges. -/

namespace Sys2Proof.Proofs

open Sys2Proof.Laws

/-- R82's reserved ranges cover every opcode above RESET_EOT. -/
theorem reserved_ranges_cover {op : Byte} (h : 0x0A < op) :
    op = 0x0B ∨ opcodeIn 0x0C 0x0F op = true ∨ opcodeIn 0x10 0x1F op = true ∨
      opcodeIn 0x20 0x3F op = true ∨ opcodeIn 0x40 0x7F op = true ∨ opcodeIn 0x80 0xFF op = true := by
  simp only [opcodeIn, Bool.and_eq_true, decide_eq_true_eq]
  bv_omega

/-- Settles O2: opcodes 0x00 to 0x0A by the row each selects, those above by their reserved range. -/
theorem opcodeByteSelectsCommand : Obligations.OpcodeByteSelectsCommand := by
  refine ⟨fun d => ?_, fun op d h => ?_⟩
  · exact ⟨decode_of_row d (by decide : rowOf 0x00 = some .getStatus),
      decode_of_row d (by decide : rowOf 0x01 = some .setTrack),
      decode_of_row d (by decide : rowOf 0x02 = some .seek),
      decode_of_row d (by decide : rowOf 0x03 = some .startMotor),
      decode_of_row d (by decide : rowOf 0x04 = some .stopMotor),
      decode_of_row d (by decide : rowOf 0x05 = some .write),
      decode_of_row d (by decide : rowOf 0x06 = some .startWrite),
      decode_of_row d (by decide : rowOf 0x07 = some .stopWrite),
      decode_of_row d (by decide : rowOf 0x08 = some .data),
      decode_of_row d (by decide : rowOf 0x09 = some .dataEot),
      decode_of_row d (by decide : rowOf 0x0A = some .resetEot)⟩
  · obtain rfl | hr | hr | hr | hr | hr := reserved_ranges_cover h
    · exact ⟨_, decode_of_row d (by decide : rowOf 0x0B = some .reserved0B), by simp [instrOfRow]⟩
    · exact ⟨_, decode_of_row d (rowOf_reserved0C0F op hr), by simp [instrOfRow]⟩
    · exact ⟨_, decode_of_row d (rowOf_reserved101F op hr), by simp [instrOfRow]⟩
    · exact ⟨_, decode_of_row d (rowOf_reserved203F op hr), by simp [instrOfRow]⟩
    · exact ⟨_, decode_of_row d (rowOf_reserved407F op hr), by simp [instrOfRow]⟩
    · exact ⟨_, decode_of_row d (rowOf_reserved80FF op hr), by simp [instrOfRow]⟩

end Sys2Proof.Proofs
end

section
/-! The first and the last step of a `send` in the host's turn (R172), and the tape check of the
loops (R191, R192). -/

namespace Sys2Proof.Proofs

open Sys2Proof.Machine Sys2Proof.Safety Sys2Proof.Laws

/-- Between two sends, the host's turn begins the request of the program's control point. -/
theorem hostTurn_begins_request {s : State} {op data : Byte} (hb : betweenSends s)
    (hr : s.h.task.request = some (op, data)) : takeTurn .host s = .next (requesting op data s) := by
  obtain ⟨ht, ho⟩ := hb
  simp [takeTurn, hostStep, ht, hr, beginSend, ho, requesting, setHost]

/-- The host's turn takes the second response byte, and `send` ends with the echo check. -/
theorem hostTurn_ends_send {s : State} {r0 r1 : Byte} {rest : List Byte} (ht : s.h.transfer = .recvData r0)
    (hc : s.deviceToHost.closed = false) (hq : s.deviceToHost.queue = r1 :: rest) :
    takeTurn .host s =
      .next (endSend (checkEcho s.h.reqOp r0 r1) (record (.response r0 r1) (setHostRx rest s))) := by
  simp [takeTurn, hostStep, ht, recvDataStep, hostRecv, hc, hq]

/-- A response that echoes its request's opcode passes the echo check, whatever its data byte (R174). -/
@[simp] theorem checkEcho_same (op rdata : Byte) : checkEcho op op rdata = .returned op rdata :=
  if_pos ((mem_accept op op).mpr (.inl rfl))

/-- A tape check's response with bit 3 clear ends either loop with `NoTape`. -/
theorem endSend_noTape {s : State} {rop st : Byte} (h : s.h.task = .readCheck ∨ s.h.task = .writeCheck)
    (hst : statusTapePresent st = false) :
    (endSend (.returned rop st) s).h.task = .idle ∧
      (endSend (.returned rop st) s).h.result = some (.raised .noTape) := by
  obtain h | h := h <;> simp [endSend, resume, h, hst]

/-- With bit 3 set the loop goes on to its start command, and the result stays as it was. -/
theorem endSend_tapePresent {s : State} {rop st : Byte} (h : s.h.task = .readCheck ∨ s.h.task = .writeCheck)
    (hst : statusTapePresent st = true) :
    (endSend (.returned rop st) s).h.result = s.h.result ∧
      (s.h.task = .readCheck → (endSend (.returned rop st) s).h.task = .readStart) ∧
      (s.h.task = .writeCheck → (endSend (.returned rop st) s).h.task = .writeStart) := by
  obtain h | h := h <;> simp [endSend, resume, h, hst]

/-- A start command's response moves its loop on whatever the result byte is (D26). -/
theorem endSend_started (rop rdata : Byte) (s : State) :
    (s.h.task = .readStart → (endSend (.returned rop rdata) s).h.task = .readTop) ∧
      (s.h.task = .writeStart → (endSend (.returned rop rdata) s).h.task = .writeSettle) := by
  constructor <;> intro h <;> simp [endSend, resume, h]

/-- Settles O51: a `send` begins with the control point's frame, and its response is taken by the echo
check and then by the loop's control point. -/
theorem tapeCheckFailsBeforeAnyMotion : Obligations.TapeCheckFailsBeforeAnyMotion := by
  refine ⟨fun s hb => ⟨?_, ?_, ?_⟩, ?_, ?_⟩
  · rintro (h | h) <;> exact hostTurn_begins_request hb (congrArg Task.request h)
  · exact fun h => hostTurn_begins_request hb (congrArg Task.request h)
  · exact fun h => hostTurn_begins_request hb (congrArg Task.request h)
  · intro s st rest htask ht hop hc hq
    have hstep := hostTurn_ends_send ht hc hq
    rw [hop, checkEcho_same] at hstep
    exact ⟨_, hstep, by simp, (endSend_h _ _).1, endSend_noTape htask, endSend_tapePresent htask⟩
  · intro s r rest ht hc hq
    have hstep := hostTurn_ends_send ht hc hq
    rw [checkEcho_same] at hstep
    obtain ⟨read, write⟩ := endSend_started s.h.reqOp r (record (.response s.h.reqOp r) (setHostRx rest s))
    exact ⟨fun h => ⟨_, hstep, read h⟩, fun h => ⟨_, hstep, write h⟩⟩

end Sys2Proof.Proofs
end

section
/-! The frame codec (R90, R91), and the step in which a frame's data byte arrives (R94). -/

namespace Sys2Proof.Proofs

open Sys2Proof.Machine Sys2Proof.Safety Sys2Proof.Laws

/-- The codec accepts one byte sequence for a pair: the pair's own frame (R91). -/
theorem codecDecode_eq_some_iff {bytes : List Byte} {op data : Byte} :
    codecDecode bytes = some (op, data) ↔ bytes = codecEncode op data := by
  match bytes with
  | [] => simp [codecDecode, codecEncode]
  | [_] => simp [codecDecode, codecEncode]
  | [_, _] => simp [codecDecode, codecEncode]
  | _ :: _ :: _ :: _ => simp [codecDecode, codecEncode]

/-- The codec refuses by length alone (R91). -/
theorem codecDecode_eq_none_iff (bytes : List Byte) : codecDecode bytes = none ↔ bytes.length ≠ 2 := by
  match bytes with
  | [] => simp [codecDecode]
  | [_] => simp [codecDecode]
  | [_, _] => simp [codecDecode]
  | _ :: _ :: _ :: _ => simp [codecDecode]

/-- Settles O1: what is accepted is exactly the pair's frame, and refusal is by the length of the input. -/
theorem codecEncodesTwoBytesAndDecodesOnlyTwo : Obligations.CodecEncodesTwoBytesAndDecodesOnlyTwo :=
  ⟨fun _ _ => ⟨rfl, codecDecode_eq_some_iff.mpr rfl⟩,
    fun _ _ _ h => (codecDecode_eq_some_iff.mp h).symm, codecDecode_eq_none_iff⟩

/-- The Responder takes the oldest byte of `link_rx` and leaves the others (R11). -/
theorem recvByte_of_head? {s : State} {b : Byte} (h : s.hostToDevice.queue.head? = some b) :
    recvByte s = some (b, setLinkRx s.hostToDevice.queue.tail s) := by
  obtain ⟨rest, hq⟩ := List.head?_eq_some_iff.mp h
  rw [recvByte, hq, List.tail_cons]

/-- Idle and holding an opcode, the Responder runs the frame's command in the step that takes its data
byte (R93, R94). -/
theorem responderStep_completes_frame {s : State} {data : Byte} {i : Instr} (hm : s.d.mode = .idle)
    (hp : s.d.phase = .data) (hq : s.hostToDevice.queue.head? = some data)
    (hd : decode [s.d.op, data] = .ok i) :
    responderStep s = some (exec i (completeFrame (setLinkRx s.hostToDevice.queue.tail s))) := by
  simp [responderStep, receiveByte, hm, recvByte_of_head? hq, hp, dispatch, codecEncode, hd]

/-- Settles O23: the Responder's turn takes the Responder's step, in which the arriving byte completes the
frame. -/
theorem stepRunsDecodedInstruction : Obligations.StepRunsDecodedInstruction := by
  intro s op data i ht ⟨hm, hp, hop, hq⟩ hd
  exact step_responderTurn ht (responderStep_completes_frame hm hp hq (hop ▸ hd))

end Sys2Proof.Proofs
end

section
/-! RESET_EOT, the command that only clears the end-of-tape latch (R118). -/

namespace Sys2Proof.Proofs

open Sys2Proof.Machine Sys2Proof.Safety Sys2Proof.Laws

/-- RESET_EOT reads neither its data byte nor the latch (R118). -/
theorem exec_resetEot (data : Byte) (s : State) :
    exec (.resetEot data) s =
      .next (respond Config.opResetEot Config.resetEotAck (clearLatch s)) := rfl

/-- Settles O21: the response is appended to the state with the latch cleared, whatever the latch was. -/
theorem resetEotClearsLatch : Obligations.ResetEotClearsLatch := by
  intro data s
  have hclear : clearLatch s = { s with t := { s.t with eotLatched := false } } := rfl
  rw [exec_resetEot, respond_eq_answered, hclear]

end Sys2Proof.Proofs
end

section
/-! DATA (R150, R151): a poll begins with its dispatch step, and ends with a byte presented or on the
latch. -/

namespace Sys2Proof.Proofs

open Sys2Proof.Machine Sys2Proof.Safety Sys2Proof.Laws

/-- DATA's dispatch step reads neither its data byte nor the latch (R150). -/
theorem exec_data (data : Byte) (s : State) : exec (.data data) s = .next (setMode .polling s) := rfl

/-- Settles O18: the dispatch step of DATA only writes the mode. -/
theorem dataStartsPolling : Obligations.DataStartsPolling := by
  intro data s
  rw [exec_data, setMode]

/-- The end of a poll appends one response, whose opcode the latch chooses, and makes the Responder
idle (R151). -/
theorem answerPoll_eq_answered (b : Byte) (s : State) :
    answerPoll b s =
      answered (if s.t.eotLatched then 0x09 else 0x08) b { s with d := { s.d with mode := .idle } } := by
  rw [answerPoll, respond_eq_answered, setMode]

/-- A byte presented to a poll ends it (R151 a). -/
theorem envStep_readByte_polling {s : State} (b : Byte) (hm : s.d.mode = .polling) :
    envStep (.readByte b) s = .next (answerPoll b s) := by
  rw [envStep, if_pos hm]

/-- With no poll waiting, the read channel's byte goes nowhere. -/
theorem envStep_readByte_not_polling {s : State} (b : Byte) (hm : s.d.mode ≠ .polling) :
    envStep (.readByte b) s = .next s := by
  rw [envStep, if_neg hm]

/-- Settles O19: in the event's turn the poll is answered in the settled state, if there is one. -/
theorem readByteAnswersPoll : Obligations.ReadByteAnswersPoll := by
  intro s b ht
  rw [step_eventTurn ht]
  refine ⟨fun hm => ?_, fun hm => envStep_readByte_not_polling b hm⟩
  exact (envStep_readByte_polling (s := settle s) b hm).trans
    (congrArg _ (answerPoll_eq_answered b (settle s)))

/-- A poll that ends on the latch is answered as DATA_EOT, with a fresh free byte (R151 b). -/
theorem answerPollByLatch_eq_answered {s : State} (hl : s.t.eotLatched = true) :
    answerPollByLatch s = answered 0x09 (Config.freeByte s.draws)
      { s with d := { s.d with mode := .idle }, draws := s.draws + 1 } := by
  rw [answerPollByLatch_eq, answerPoll_eq_answered, if_pos hl]

/-- Polling with the latch set, the Responder's own step completes the poll (R151 b). -/
theorem responderStep_polling_latched {s : State} (hm : s.d.mode = .polling) (hl : s.t.eotLatched = true) :
    responderStep s = some (.next (answerPollByLatch s)) := by
  simp [responderStep, hm, hl]

/-- In the Responder's turn nothing but the turn is taken where the Responder has no step. -/
theorem step_responderTurn_none {s : State} (ht : responderTurn s) (hn : responderStep (settle s) = none) :
    step s = .next (settle s) := by
  rw [step_eq, ht, takeTurn, hn, Option.getD_none]

/-- Settles O20: with the latch set the byte is the next free one; with it clear the Responder waits. -/
theorem latchAnswersPollWithSomeByte : Obligations.LatchAnswersPollWithSomeByte := by
  intro s ht hm
  refine ⟨fun hl => ⟨Config.freeByte s.draws, ?_⟩, fun hl => ?_⟩
  · rw [step_responderTurn ht (responderStep_polling_latched hm hl)]
    exact congrArg _ (answerPollByLatch_eq_answered hl)
  · exact step_responderTurn_none ht (responderStep_none.mpr (.inr (.inr ⟨hm, hl⟩)))

end Sys2Proof.Proofs
end

section
/-! One whole exchange on a quiet link (R172): the turns in which the request goes out and is executed,
and those in which its response comes in. A DATA poll has a presented byte between the two. -/

namespace Sys2Proof.Proofs

open Sys2Proof.Machine Sys2Proof.Safety Sys2Proof.Laws

/-! ### Runs along a script -/

/-- At the same rate a scripted turn is taken off the script and nothing else. -/
theorem step_scripted {s : State} {turn : Turn} {rest : List Turn} (hr : SameLineRate s)
    (hs : s.script = turn :: rest) : step s = takeTurn turn { s with script := rest } := by
  rw [step_same hr, nextTurn_scripted hs, dropTurn, hs]
  rfl

/-- A run of any machine goes on from where its first step leads. -/
theorem coreRun_succ {M : Host.Core} {s t : M.State} {o : Host.Outcome M.State M.Fault M.Refusal} {k : Nat}
    (h : M.step s = .next t) (ho : M.run k t = o) : M.run (k + 1) s = o := by
  rw [Host.Core.run, h]
  exact ho

/-- A run of the block goes on from where its first step leads. -/
theorem run_step {s t : State} {o : Host.Outcome State Fault Refusal} {k : Nat} (h : step s = .next t)
    (ho : Sys2Proof.core.run k t = o) : Sys2Proof.core.run (k + 1) s = o :=
  coreRun_succ (M := Sys2Proof.core) h ho

/-- A scripted run at the same rate goes on from where its first turn leads. -/
theorem run_scripted {s t : State} {o : Host.Outcome State Fault Refusal} {k : Nat} {turn : Turn}
    {rest : List Turn} (hr : SameLineRate s) (hs : s.script = turn :: rest)
    (h : takeTurn turn { s with script := rest } = .next t) (ho : Sys2Proof.core.run k t = o) :
    Sys2Proof.core.run (k + 1) s = o :=
  run_step ((step_scripted hr hs).trans h) ho

/-! ### The turns of one exchange -/

/-- With no program running, a call of `send` starts the transfer of its frame (R170, R172). -/
theorem eventTurn_calls_send {s : State} (op data : Byte) (ht : s.h.task = .idle)
    (ho : s.h.outstanding = false) :
    takeTurn (.event (.callSend op data)) s = .next (setHost
      { s.h with
        task := .call op data, result := none, outstanding := true, reqOp := op,
        transfer := .sendOpcode op data } s) := by
  simp [takeTurn, envStep, callSend, beginSend, ht, ho, setHost]

/-- The host's turn puts the opcode byte on an open channel (R172). -/
theorem hostTurn_sends_opcode {s : State} {b0 b1 : Byte} (ht : s.h.transfer = .sendOpcode b0 b1)
    (hc : s.hostToDevice.closed = false) (hr : s.h.responseOutstanding = false) :
    takeTurn .host s = .next (setHost
      { s.h with direct := s.h.direct.afterSend, transfer := .sendData b1 }
      (setLinkRx (s.hostToDevice.queue ++ [b0]) s)) := by
  simp [takeTurn, hostStep, ht, sendOpcodeStep, hostSend, hc, hr, setHost, setLinkRx]

/-- The host's turn puts the data byte on an open channel, and the request is recorded (R172, R201). -/
theorem hostTurn_sends_data {s : State} {b1 : Byte} (ht : s.h.transfer = .sendData b1)
    (hc : s.hostToDevice.closed = false) (hr : s.h.responseOutstanding = false) :
    takeTurn .host s = .next (setHost
      { s.h with
        direct := s.h.direct.afterSend, transfer := .recvOpcode,
        trace := s.h.trace ++ [.request s.h.reqOp b1] }
      (setLinkRx (s.hostToDevice.queue ++ [b1]) s)) := by
  simp [takeTurn, hostStep, ht, sendDataStep, hostSend, hc, hr, setHost, setLinkRx, record]

/-- The host's turn takes the first response byte (R172). -/
theorem hostTurn_receives_opcode {s : State} {r0 : Byte} {rest : List Byte}
    (ht : s.h.transfer = .recvOpcode) (hc : s.deviceToHost.closed = false)
    (hq : s.deviceToHost.queue = r0 :: rest) :
    takeTurn .host s = .next (setHost { s.h with transfer := .recvData r0 } (setHostRx rest s)) := by
  simp [takeTurn, hostStep, ht, recvOpcodeStep, hostRecv, hc, hq, setHost, setHostRx]

/-- The Responder's turn takes and holds the opcode byte (R93). -/
theorem responderTurn_holds_opcode {s : State} {b : Byte} (hm : s.d.mode = .idle)
    (hp : s.d.phase = .opcode) (hq : s.hostToDevice.queue.head? = some b) :
    takeTurn .responder s = .next (holdOpcode b (setLinkRx s.hostToDevice.queue.tail s)) := by
  simp [takeTurn, responderStep, hm, receiveByte, recvByte_of_head? hq, hp]

/-- The Responder's turn takes the data byte and runs the frame's command (R93, R94). -/
theorem responderTurn_executes {s e : State} {op data : Byte} {i : Instr} (hm : s.d.mode = .idle)
    (hp : s.d.phase = .data) (hop : s.d.op = op) (hq : s.hostToDevice.queue.head? = some data)
    (hd : decode [op, data] = .ok i)
    (he : exec i (completeFrame (setLinkRx s.hostToDevice.queue.tail s)) = .next e) :
    takeTurn .responder s = .next e := by
  rw [takeTurn, responderStep_completes_frame hm hp hq (hop ▸ hd), Option.getD_some, he]

/-! ### The request half -/

/-- The quiet state `s` in the middle of an exchange that a call of `send(op, data)` began: how far the
transfer and the trace have got, the Responder's state, the bytes on their way to it and the turns left. -/
def midExchange (op data : Byte) (transfer : Transfer) (trace : List FrameRecord) (d : ResponderState)
    (queue : List Byte) (script : List Turn) (s : State) : State :=
  { s with
    h := { s.h with
      outstanding := true, reqOp := op, transfer := transfer, task := .call op data, trace := trace,
      result := none, direct := .none }
    d := d
    hostToDevice := { s.hostToDevice with queue := queue }
    script := script }

/-- `s` once the whole request has gone out and come in: the host waits for the response, and the
Responder is about to run the command. -/
def requestTaken (op data : Byte) (script : List Turn) (s : State) : State :=
  midExchange op data .recvOpcode (s.h.trace ++ [.request op data]) { s.d with phase := .opcode, op := op } []
    script s

section
variable {s : State} (op data : Byte) (script : List Turn) (hquiet : Quiet s)
include hquiet

/-- A call of `send` on a quiet link begins the exchange. -/
theorem quiet_call_begins :
    takeTurn (.event (.callSend op data)) { s with script := script } =
      .next (midExchange op data (.sendOpcode op data) s.h.trace s.d [] script s) := by
  obtain ⟨hempty, -⟩ := hquiet.wireEmpty
  rw [midExchange, ← hempty, ← hquiet.direct]
  exact eventTurn_calls_send op data hquiet.task hquiet.outstanding

/-- The opcode byte goes out. -/
theorem midExchange_sends_opcode :
    takeTurn .host (midExchange op data (.sendOpcode op data) s.h.trace s.d [] script s) =
      .next (midExchange op data (.sendData data) s.h.trace s.d [op] script s) :=
  hostTurn_sends_opcode rfl hquiet.open1 rfl

/-- The Responder takes it and holds it. -/
theorem midExchange_holds_opcode :
    takeTurn .responder (midExchange op data (.sendData data) s.h.trace s.d [op] script s) =
      .next (midExchange op data (.sendData data) s.h.trace { s.d with phase := .data, op := op } []
        script s) :=
  responderTurn_holds_opcode hquiet.resting.1 hquiet.resting.2 rfl

/-- The data byte goes out, and the request is in the trace. -/
theorem midExchange_sends_data :
    takeTurn .host
        (midExchange op data (.sendData data) s.h.trace { s.d with phase := .data, op := op } [] script s) =
      .next (midExchange op data .recvOpcode (s.h.trace ++ [.request op data])
        { s.d with phase := .data, op := op } [data] script s) :=
  hostTurn_sends_data rfl hquiet.open1 rfl

/-- The Responder takes it and runs the command. -/
theorem midExchange_executes {i : Instr} {e : State} (hd : decode [op, data] = .ok i)
    (he : exec i (requestTaken op data script s) = .next e) :
    takeTurn .responder
        (midExchange op data .recvOpcode (s.h.trace ++ [.request op data])
          { s.d with phase := .data, op := op } [data] script s) = .next e :=
  responderTurn_executes hquiet.resting.1 rfl rfl rfl hd he

end

/-- The five turns from a call of `send` to the execution of its command. -/
theorem run_request {s e : State} {op data : Byte} {i : Instr} {rest : List Turn} (hquiet : Quiet s)
    (hs : s.script = .event (.callSend op data) :: .host :: .responder :: .host :: .responder :: rest)
    (hd : decode [op, data] = .ok i) (he : exec i (requestTaken op data rest s) = .next e)
    {o : Host.Outcome State Fault Refusal} {k : Nat} (ho : Sys2Proof.core.run k e = o) :
    Sys2Proof.core.run (k + 5) s = o := by
  have hrate := hquiet.rate
  refine run_scripted hrate hs (quiet_call_begins op data _ hquiet) ?_
  refine run_scripted hrate rfl (midExchange_sends_opcode (s := s) op data _ hquiet) ?_
  refine run_scripted hrate rfl (midExchange_holds_opcode (s := s) op data _ hquiet) ?_
  refine run_scripted hrate rfl (midExchange_sends_data (s := s) op data _ hquiet) ?_
  exact run_scripted hrate rfl (midExchange_executes (s := s) op data _ hquiet hd he) ho

/-! ### The response half -/

/-- The link with one response on its way back to a caller's `send`, which will accept it. -/
structure ResponseOnItsWay (rop rdata : Byte) (s : State) : Prop where
  resting : resting s
  taken : s.hostToDevice.queue = []
  queue : s.deviceToHost.queue = [rop, rdata]
  open1 : s.hostToDevice.closed = false
  open2 : s.deviceToHost.closed = false
  rate : SameLineRate s
  task : ∃ op data, s.h.task = .call op data
  transfer : s.h.transfer = .recvOpcode
  accepted : rop ∈ accept s.h.reqOp
  direct : s.h.direct = .none

/-- The host's turn takes the second byte of an accepted response: `send` returns to its caller, and no
program runs any more (R170, R174). -/
theorem hostTurn_returns_to_caller {s : State} {op data r0 r1 : Byte} {rest : List Byte}
    (htask : s.h.task = .call op data) (ht : s.h.transfer = .recvData r0)
    (hc : s.deviceToHost.closed = false) (hq : s.deviceToHost.queue = r1 :: rest)
    (ha : r0 ∈ accept s.h.reqOp) :
    takeTurn .host s = .next (setHost
      { s.h with
        outstanding := false, transfer := .none, task := .idle,
        trace := s.h.trace ++ [.response r0 r1], result := some (.sendReturned r0 r1) }
      (setHostRx rest s)) := by
  rw [hostTurn_ends_send ht hc hq, checkEcho, if_pos ha]
  simp [endSend, resume, htask, record, finish, setHost, setHostRx]

/-- The two turns in which a response comes in: `send` returns it and it is in the trace, the registers
and the tape stay, the link is quiet. -/
theorem run_response {s : State} {rop rdata : Byte} {rest : List Turn} (h : ResponseOnItsWay rop rdata s)
    (hs : s.script = .host :: .host :: rest) :
    ∃ t : State, Sys2Proof.core.run 2 s = .next t ∧ t.t = s.t ∧ t.writeData = s.writeData ∧ Quiet t ∧
      t.h.result = some (.sendReturned rop rdata) ∧ t.h.trace = s.h.trace ++ [.response rop rdata] := by
  obtain ⟨hrest, htaken, hqueue, hopen1, hopen2, hrate, ⟨op, data, htask⟩, htransfer, haccept,
    hdirect⟩ := h
  refine ⟨_, run_scripted hrate hs (hostTurn_receives_opcode htransfer hopen2 hqueue)
    (run_scripted hrate rfl (hostTurn_returns_to_caller htask rfl hopen2 rfl haccept) rfl),
    rfl, rfl, ?_, rfl, rfl⟩
  exact ⟨hrest, ⟨htaken, rfl⟩, hopen1, hopen2, hrate, rfl, rfl, rfl, hdirect⟩

/-! ### The poll -/

/-- Either answer to a poll passes the echo check (R174). -/
theorem pollAnswer_accepted (latched : Bool) :
    (if latched then 0x09 else 0x08) ∈ accept Config.opData := by
  cases latched <;> decide

/-- The poll of a quiet link, answered with a presented byte. -/
theorem pollAnswer_onItsWay {s : State} (data b : Byte) (waiting rest : List Turn) (hquiet : Quiet s) :
    ResponseOnItsWay (if s.t.eotLatched then 0x09 else 0x08) b
      (answerPoll b { setMode .polling (requestTaken 0x08 data waiting s) with script := rest }) where
  resting := ⟨rfl, rfl⟩
  taken := rfl
  queue := by
    obtain ⟨-, hempty⟩ := hquiet.wireEmpty
    simp [requestTaken, midExchange, hempty]
  open1 := hquiet.open1
  open2 := hquiet.open2
  rate := hquiet.rate
  task := ⟨0x08, data, rfl⟩
  transfer := rfl
  accepted := pollAnswer_accepted s.t.eotLatched
  direct := rfl

/-- Settles O47: the request leaves the Responder polling, the presented byte answers the poll, and the
two bytes of the answer return to the caller. -/
theorem pollReturnsThePresentedByte : Obligations.PollReturnsThePresentedByte := by
  intro s data b hquiet hs
  obtain ⟨t, hresponse, hregs, -, hquiet', hresult, -⟩ :=
    run_response (pollAnswer_onItsWay data b [.event (.readByte b), .host, .host] [.host, .host] hquiet) rfl
  refine ⟨t, ?_, hregs, hquiet', hresult⟩
  refine run_request hquiet hs (decode_of_row data (by decide : rowOf 0x08 = some .data))
    (exec_data data _) ?_
  exact run_scripted (turn := .event (.readByte b)) hquiet.rate rfl (envStep_readByte_polling b rfl) hresponse

end Sys2Proof.Proofs
end

section
/-! The host invariant (R33, R172): a request is outstanding exactly while `send` is in progress, and is the
one the program's control point names. Every step keeps it, and in it only R171 and R264 are ever broken. -/

namespace Sys2Proof.Proofs

open Sys2Proof.Machine Sys2Proof.Safety Sys2Proof.Laws

/-! ### The invariant between two sends and during one -/

/-- Between two sends the invariant asks nothing of the program. -/
theorem hostInv_of_betweenSends {h : HostState} (ho : h.outstanding = false) (ht : h.transfer = .none) :
    HostInv h :=
  ⟨by simp [ho, ht], fun hne => absurd ht hne⟩

/-- During a `send` it asks for the frame of the control point. -/
theorem hostInv_of_sending {h : HostState} {data : Byte} (ho : h.outstanding = true)
    (hr : h.task.request = some (h.reqOp, data)) (hm : transferMatches h.reqOp data h.transfer) :
    HostInv h := by
  have hne : h.transfer ≠ .none := by
    intro ht
    rw [ht] at hm
    exact hm
  exact ⟨iff_of_true ho hne, fun _ => ⟨data, hr, hm⟩⟩

/-- The invariant reads the request, the transfer and the control point only. -/
theorem hostInv_congr {h h' : HostState} (hinv : HostInv h) (ho : h'.outstanding = h.outstanding)
    (ht : h'.transfer = h.transfer) (hop : h'.reqOp = h.reqOp) (htask : h'.task = h.task) : HostInv h' :=
  ⟨by rw [ho, ht]; exact hinv.outstanding, by rw [ht, hop, htask]; exact hinv.sends⟩

/-- A control point that sends nothing is between two sends. -/
theorem hostInv_transfer_none {h : HostState} (hinv : HostInv h) (hr : h.task.request = none) :
    h.transfer = .none := by
  by_contra hne
  obtain ⟨data, hsome, -⟩ := hinv.sends hne
  rw [hr] at hsome
  cases hsome

/-- Between two sends nothing is outstanding. -/
theorem hostInv_not_outstanding {h : HostState} (hinv : HostInv h) (ht : h.transfer = .none) :
    h.outstanding = false := by
  rw [← Bool.not_eq_true]
  exact fun ho => hinv.outstanding.mp ho ht

/-- With no program running the host is between two sends. -/
theorem hostInv_idle {h : HostState} (hinv : HostInv h) (htask : h.task = .idle) :
    h.outstanding = false ∧ h.transfer = .none := by
  have ht := hostInv_transfer_none hinv (congrArg Task.request htask)
  exact ⟨hostInv_not_outstanding hinv ht, ht⟩

/-- The end of a `send` leaves the host between two sends. -/
theorem hostInv_endSend (o : SendOutcome) (s : State) : HostInv (endSend o s).h := by
  obtain ⟨ho, ht, -⟩ := endSend_h o s
  exact hostInv_of_betweenSends ho ht

/-! ### Every step keeps it -/

/-- The host's step keeps the invariant: `send` moves on through its frame, ends, or is begun by the
control point; a control step is taken between two sends. -/
theorem hostInv_hostStep {s t : State} (hinv : HostInv s.h) (h : hostStep s = some (.next t)) :
    HostInv t.h := by
  have sending : s.h.transfer ≠ .none → s.h.outstanding = true := hinv.outstanding.mpr
  rcases hostStep_cases h with ⟨op, data, ht, hr, ho⟩ | ⟨_, ht, hr, hc, ho⟩ | ⟨b0, b1, ht, ho⟩ |
    ⟨b1, ht, ho⟩ | ⟨_, ht, hc, ho⟩ | ⟨r0, _, ht, hc, ho⟩
  · rcases beginSend_cases op data s with ⟨_, e⟩ | ⟨_, e⟩ <;> rw [e] at ho <;> cases ho
    exact hostInv_of_sending rfl hr ⟨rfl, rfl⟩
  · cases ho
    obtain ⟨hout, htr, -⟩ := controlStep_host hc
    rw [hostInv_not_outstanding hinv ht, or_self] at hout
    rw [ht, or_self] at htr
    exact hostInv_of_betweenSends hout htr
  · obtain ⟨data, hr, hm⟩ := hinv.sends (by simp [ht])
    rw [ht] at hm
    rcases sendOpcodeStep_cases b0 b1 s with ⟨_, e⟩ | ⟨_, _, e⟩ | ⟨_, _, e⟩ <;> rw [e] at ho <;> cases ho
    · exact hostInv_endSend _ _
    · exact hostInv_of_sending (sending (by simp [ht])) hr hm.2
  · obtain ⟨data, hr, -⟩ := hinv.sends (by simp [ht])
    rcases sendDataStep_cases b1 s with ⟨_, e⟩ | ⟨_, _, e⟩ | ⟨_, _, e⟩ <;> rw [e] at ho <;> cases ho
    · exact hostInv_endSend _ _
    · exact hostInv_of_sending (sending (by simp [ht])) hr trivial
  · cases ho
    obtain ⟨data, hr, -⟩ := hinv.sends (by simp [ht])
    rcases recvOpcodeStep_cases hc with ⟨_, rfl⟩ | ⟨_, _, _, _, rfl⟩
    · exact hostInv_endSend _ _
    · exact hostInv_of_sending (sending (by simp [ht])) hr trivial
  · cases ho
    rcases recvDataStep_cases hc with ⟨_, rfl⟩ | ⟨_, _, _, _, rfl⟩ <;> exact hostInv_endSend _ _

/-- A link fault leaves the host alone. -/
theorem applyFault_h (f : LinkFault) (s : State) : (applyFault f s).h = s.h := by
  rcases f with ⟨_ | _, _⟩ | ⟨_ | _, _, _⟩ | ⟨_ | _, _, _⟩ | ⟨_ | _⟩ | _ <;> rfl

/-- What an event can do to the host: nothing, raise the cancellation, start a process, or, while no program
runs, open the link, call `send`, start a program, or move a direct writer's frame. -/
theorem envStep_host {e : Event} {s t : State} (h : envStep e s = .next t) :
    t.h = s.h ∨ (e = .cancel ∧ t.h = { s.h with cancel := true }) ∨
    (e = .processStart ∧ t.h = HostState.reset) ∨
    (s.h.task = .idle ∧
      (t.h = { s.h with outstanding := false, transfer := .none, direct := .none } ∨
       (∃ op data, t.h = { s.h with
          task := .call op data, result := none, outstanding := true, reqOp := op,
          transfer := .sendOpcode op data }) ∨
       (∃ p, t.h = (launch p s).h) ∨
       ∃ frame bytes, t.h = { s.h with direct := frame, directIn := bytes })) := by
  cases e <;> simp only [envStep, Host.Outcome.next.injEq] at h
  case cancel => subst h; exact .inr (.inl ⟨rfl, rfl⟩)
  case processStart => subst h; exact .inr (.inr (.inl ⟨rfl, rfl⟩))
  case seekDone => subst h; split <;> exact .inl rfl
  case readByte b => subst h; split <;> exact .inl rfl
  case linkFault f =>
    subst h
    exact .inl (applyFault_h f s)
  case hostConnect rate =>
    subst h
    split
    · exact .inr (.inr (.inr ⟨‹_›, .inl rfl⟩))
    · exact .inl rfl
  case callSend op data =>
    obtain ⟨-, rfl | ⟨htask, rfl⟩⟩ := callSend_cases h
    · exact .inl rfl
    · exact .inr (.inr (.inr ⟨htask, .inr (.inl ⟨op, data, rfl⟩)⟩))
  case directWrite b =>
    obtain rfl | ⟨htask, -, -, rfl⟩ := directWrite_cases h
    · exact .inl rfl
    · exact .inr (.inr (.inr ⟨htask, .inr (.inr (.inr ⟨_, _, rfl⟩))⟩))
  case directRead =>
    subst h
    rcases directRead_cases s with e | ⟨htask, e⟩ | ⟨b, rest, htask, -, -, e⟩ <;> rw [e]
    · exact .inl rfl
    · exact .inr (.inr (.inr ⟨htask, .inr (.inr (.inr ⟨_, _, rfl⟩))⟩))
    · exact .inr (.inr (.inr ⟨htask, .inr (.inr (.inr ⟨_, _, rfl⟩))⟩))
  case launch p =>
    subst h
    split
    · exact .inr (.inr (.inr ⟨‹_›, .inr (.inr (.inl ⟨p, rfl⟩))⟩))
    · exact .inl rfl
  all_goals
    subst h
    exact .inl rfl

/-- An event keeps the invariant: what it can do to a request or a program, it does while none runs. -/
theorem hostInv_envStep {e : Event} {s t : State} (hinv : HostInv s.h) (h : envStep e s = .next t) :
    HostInv t.h := by
  rcases envStep_host h with ht | ⟨_, ht⟩ | ⟨_, ht⟩ | ⟨hidle, ht | ⟨op, data, ht⟩ | ⟨p, ht⟩ | ⟨_, _, ht⟩⟩ <;>
    rw [ht]
  · exact hinv
  · exact hostInv_congr hinv rfl rfl rfl rfl
  · exact hostInv_of_betweenSends rfl rfl
  · exact hostInv_of_betweenSends rfl rfl
  · exact hostInv_of_sending rfl rfl ⟨rfl, rfl⟩
  · obtain ⟨hout, htr⟩ := hostInv_idle hinv hidle
    obtain ⟨e1, e2, -⟩ := launch_host p s
    exact hostInv_of_betweenSends (e1.trans hout) (e2.trans htr)
  · exact hostInv_congr hinv rfl rfl rfl rfl

/-- Settles O45: the Responder leaves the host alone, and neither the host's step nor an event breaks the
invariant. -/
theorem outstandingRequestMatchesProgram : Obligations.OutstandingRequestMatchesProgram := by
  intro s t hinv h
  rcases step_cases h with ⟨_, hr⟩ | ⟨_, hh⟩ | ⟨e, _, he⟩ | ⟨_, rfl⟩
  · rw [responderStep_h hr]
    exact hinv
  · exact hostInv_hostStep (s := settle s) hinv hh
  · exact hostInv_envStep (s := settle s) hinv he
  · exact hinv

/-! ### What is refused -/

/-- Only a direct writer's frame keeps the host from transmitting while no `send` receives (R264). -/
theorem responseOutstanding_iff (h : HostState) :
    h.responseOutstanding = true ↔
      h.direct = .awaitOpcode ∨ h.direct = .awaitData ∨ h.transfer = .recvOpcode ∨
        ∃ r0, h.transfer = .recvData r0 := by
  unfold HostState.responseOutstanding
  cases h.transfer <;> cases h.direct <;> simp [Transfer.receiving, DirectFrame.clear]

/-- No command is refused (R78, R220). -/
theorem exec_not_refused (i : Instr) (s : State) (r : Refusal) : exec i s ≠ .refused r := by
  cases i <;> exact fun h => by cases h

/-- The Responder refuses nothing. -/
theorem responderStep_not_refused (s : State) (r : Refusal) : responderStep s ≠ some (.refused r) := by
  intro h
  rcases responderStep_cases h with ⟨_, _, _, _, _, ho⟩ | ⟨_, _, i, _, _, _, _, ho⟩ | ⟨_, _, ho⟩
  · cases ho
  · exact exec_not_refused i _ r ho.symm
  · cases ho

/-- In the invariant the host's step is refused only at a byte of a `send` on an open channel, while a direct
writer's frame is unanswered: the control point calls `send` with nothing outstanding. -/
theorem hostStep_refused {s : State} {r : Refusal} (hinv : HostInv s.h)
    (h : hostStep s = some (.refused r)) :
    r = .writeWhileResponseOutstanding ∧ s.hostToDevice.closed = false ∧
      (s.h.direct = .awaitOpcode ∨ s.h.direct = .awaitData) ∧
      ((∃ b0 b1, s.h.transfer = .sendOpcode b0 b1) ∨ ∃ b1, s.h.transfer = .sendData b1) := by
  rcases hostStep_cases h with ⟨op, data, ht, hr, ho⟩ | ⟨_, ht, hr, hc, ho⟩ | ⟨b0, b1, ht, ho⟩ |
    ⟨b1, ht, ho⟩ | ⟨_, ht, hc, ho⟩ | ⟨r0, _, ht, hc, ho⟩
  · rw [beginSend, hostInv_not_outstanding hinv ht] at ho
    cases ho
  · cases ho
  · rcases sendOpcodeStep_cases b0 b1 s with ⟨_, e⟩ | ⟨hopen, hout, e⟩ | ⟨_, _, e⟩ <;> rw [e] at ho <;> cases ho
    rw [responseOutstanding_iff, ht] at hout
    exact ⟨rfl, hopen, by simpa using hout, .inl ⟨b0, b1, ht⟩⟩
  · rcases sendDataStep_cases b1 s with ⟨_, e⟩ | ⟨hopen, hout, e⟩ | ⟨_, _, e⟩ <;> rw [e] at ho <;> cases ho
    rw [responseOutstanding_iff, ht] at hout
    exact ⟨rfl, hopen, by simpa using hout, .inr ⟨b1, ht⟩⟩
  · cases ho
  · cases ho

/-- A call of `send` is refused only while a request is outstanding (R171). -/
theorem callSend_refused {op data : Byte} {s : State} {r : Refusal} (h : callSend op data s = .refused r) :
    r = .sendWhileOutstanding ∧ s.h.outstanding = true := by
  unfold callSend at h
  split at h
  · cases h
    exact ⟨rfl, ‹_›⟩
  split at h
  · rename_i hout _
    rcases beginSend_cases op data (setHost { s.h with task := .call op data, result := none } s) with
      ⟨ho, _⟩ | ⟨_, e⟩
    · exact absurd ho hout
    · rw [e] at h
      cases h
  · cases h

/-- A directly written byte is refused only on an open channel while a response is outstanding (R264). -/
theorem directWrite_refused {b : Byte} {s : State} {r : Refusal} (h : directWrite b s = .refused r) :
    r = .writeWhileResponseOutstanding ∧ s.hostToDevice.closed = false ∧
      s.h.responseOutstanding = true := by
  unfold directWrite at h
  rcases hostSend_cases b s.h.direct.afterWrite s with ⟨_, e⟩ | ⟨hc, hr, e⟩ | ⟨_, _, e⟩ <;>
    simp only [e] at h
  · cases h
  · cases h
    exact ⟨rfl, hc, hr⟩
  · split at h <;> cases h

/-- Of the events only a call of `send` and a direct write are ever refused. -/
theorem envStep_refused {e : Event} {s : State} {r : Refusal} (h : envStep e s = .refused r) :
    (∃ op data, e = .callSend op data ∧ callSend op data s = .refused r) ∨
      ∃ b, e = .directWrite b ∧ directWrite b s = .refused r := by
  cases e <;> simp only [envStep, reduceCtorEq] at h
  case callSend op data => exact .inl ⟨op, data, rfl, h⟩
  case directWrite b => exact .inr ⟨b, rfl, h⟩

/-- A refused step is the Responder's, the host's or an event's. -/
theorem step_refused_cases {s : State} {r : Refusal} (h : step s = .refused r) :
    (nextTurn s = .responder ∧ responderStep (settle s) = some (.refused r)) ∨
    (nextTurn s = .host ∧ hostStep (settle s) = some (.refused r)) ∨
    ∃ e, eventTurn e s ∧ envStep e (settle s) = .refused r := by
  rw [step_eq] at h
  have acts : ∀ o : Option (Host.Outcome State Fault Refusal),
      o.getD (.next (settle s)) = .refused r → o = some (.refused r) := by
    rintro (_ | o) ho
    · cases ho
    · exact congrArg some ho
  cases hn : nextTurn s with
  | responder => exact .inl ⟨rfl, acts _ (by rwa [hn] at h)⟩
  | host => exact .inr (.inl ⟨rfl, acts _ (by rwa [hn] at h)⟩)
  | event e => exact .inr (.inr ⟨e, hn, by rwa [hn] at h⟩)

/-- Settles O42: the Responder refuses nothing, and the host's step and the two events that can be refused
are refused for R171 or R264. -/
theorem onlyHostProtocolErrorsAreRefused : Obligations.OnlyHostProtocolErrorsAreRefused := by
  intro s r hinv h
  rcases step_refused_cases h with ⟨_, hr⟩ | ⟨hn, hh⟩ | ⟨e, he, henv⟩
  · exact absurd hr (responderStep_not_refused _ _)
  · obtain ⟨hr, hopen, hdirect, htr⟩ := hostStep_refused (s := settle s) hinv hh
    exact .inr ⟨hr, hopen, .inl ⟨hdirect, hn, htr⟩⟩
  · rcases envStep_refused henv with ⟨op, data, rfl, hc⟩ | ⟨b, rfl, hw⟩
    · obtain ⟨hr, hout⟩ := callSend_refused hc
      exact .inl ⟨hr, hout, op, data, he⟩
    · obtain ⟨hr, hopen, hout⟩ := directWrite_refused hw
      exact .inr ⟨hr, hopen, .inr ⟨(responseOutstanding_iff _).mp hout, b, he⟩⟩

end Sys2Proof.Proofs
end

section
/-! The link invariant (R57, R76, R92): on a reliable link that nothing disturbs, one frame is in flight, the
device runs the frame the host sent, and the echo check accepts its response. -/

namespace Sys2Proof.Proofs

open Sys2Proof.Machine Sys2Proof.Safety Sys2Proof.Laws

/-! ### Where the one frame in flight can be -/

/-- Before the opcode byte has gone out the link is at rest. -/
theorem frameInFlight_of_unsent {s : State}
    (ht : s.h.transfer = .none ∨ ∃ b0 b1, s.h.transfer = .sendOpcode b0 b1) (hrest : resting s)
    (hw : wireEmpty s) : frameInFlight s := by
  obtain ht | ⟨b0, b1, ht⟩ := ht <;> simp only [frameInFlight, ht] <;> exact ⟨hrest, hw⟩

/-- And so it is before the opcode byte goes out. -/
theorem frameInFlight_unsent {s : State} (hf : frameInFlight s)
    (ht : s.h.transfer = .none ∨ ∃ b0 b1, s.h.transfer = .sendOpcode b0 b1) : resting s ∧ wireEmpty s := by
  obtain ht | ⟨b0, b1, ht⟩ := ht <;> simpa only [frameInFlight, ht] using hf

/-- A byte that reaches the Responder between two frames is the opcode of the request, alone or with the
data byte behind it. -/
theorem frameInFlight_opcode_arrives {s : State} {b : Byte} {rest : List Byte} (hf : frameInFlight s)
    (hrest : resting s) (hq : s.hostToDevice.queue = b :: rest) :
    b = s.h.reqOp ∧ s.deviceToHost.queue = [] ∧
      ((∃ b1, s.h.transfer = .sendData b1 ∧ rest = []) ∨
       (s.h.transfer = .recvOpcode ∧ ∃ data, s.h.task.request = some (s.h.reqOp, data) ∧ rest = [data])) := by
  obtain ⟨hm, hp⟩ := hrest
  cases ht : s.h.transfer <;>
    simp only [frameInFlight, ht, wireEmpty, resting, hm, hp, hq, reduceCtorEq, List.cons.injEq, false_and,
      and_false, or_false, true_and, and_true] at hf
  case sendData b1 =>
    obtain ⟨hback, hb, hnil⟩ := hf
    exact ⟨hb, hback, .inl ⟨b1, rfl, hnil⟩⟩
  case recvOpcode =>
    obtain ⟨data, hr, ⟨hb, hdata⟩, hback⟩ := hf
    exact ⟨hb, hback, .inr ⟨rfl, data, hr, hdata⟩⟩

/-- A byte that reaches the Responder within a frame completes the host's request. -/
theorem frameInFlight_data_arrives {s : State} {b : Byte} {rest : List Byte} (hf : frameInFlight s)
    (hp : s.d.phase = .data) (hq : s.hostToDevice.queue = b :: rest) :
    s.h.transfer = .recvOpcode ∧ s.h.task.request = some (s.h.reqOp, b) ∧ s.d.op = s.h.reqOp ∧ rest = [] ∧
      s.deviceToHost.queue = [] := by
  cases ht : s.h.transfer <;>
    simp only [frameInFlight, ht, wireEmpty, resting, hp, hq, reduceCtorEq, List.cons.injEq, false_and,
      and_false, or_false, false_or, true_and] at hf
  case recvOpcode =>
    obtain ⟨data, hr, -, hop, ⟨rfl, hnil⟩, hback⟩ := hf
    exact ⟨rfl, hr, hop, hnil, hback⟩

/-- A Responder that is positioning runs the host's SEEK. -/
theorem frameInFlight_seeking {s : State} (hf : frameInFlight s) (hm : s.d.mode = .seeking) :
    s.h.transfer = .recvOpcode ∧ s.d.phase = .opcode ∧ s.h.reqOp = Config.opSeek ∧ wireEmpty s ∧
      ∃ data, s.h.task.request = some (s.h.reqOp, data) := by
  cases ht : s.h.transfer <;>
    simp only [frameInFlight, ht, resting, hm, reduceCtorEq, false_and, or_false, false_or, true_and] at hf
  case recvOpcode =>
    obtain ⟨data, hr, hp, hop, hw⟩ := hf
    exact ⟨rfl, hp, hop, hw, data, hr⟩

/-- A Responder that is polling runs the host's DATA. -/
theorem frameInFlight_polling {s : State} (hf : frameInFlight s) (hm : s.d.mode = .polling) :
    s.h.transfer = .recvOpcode ∧ s.d.phase = .opcode ∧ s.h.reqOp = Config.opData ∧ wireEmpty s ∧
      ∃ data, s.h.task.request = some (s.h.reqOp, data) := by
  cases ht : s.h.transfer <;>
    simp only [frameInFlight, ht, resting, hm, reduceCtorEq, false_and, or_false, false_or, true_and] at hf
  case recvOpcode =>
    obtain ⟨data, hr, hp, hop, hw⟩ := hf
    exact ⟨rfl, hp, hop, hw, data, hr⟩

/-- A byte that reaches a `send` waiting for its response is the first of an accepted one. -/
theorem frameInFlight_response_arrives {s : State} {b : Byte} {rest : List Byte} (hf : frameInFlight s)
    (ht : s.h.transfer = .recvOpcode) (hq : s.deviceToHost.queue = b :: rest) :
    resting s ∧ s.hostToDevice.queue = [] ∧ b ∈ accept s.h.reqOp ∧ ∃ rdata, rest = [rdata] := by
  simp only [frameInFlight, ht, wireEmpty, hq, reduceCtorEq, List.cons.injEq, and_false, false_or] at hf
  obtain ⟨_, -, hrest, hsent, _, rdata, ⟨rfl, hq⟩, hacc⟩ := hf
  exact ⟨hrest, hsent, hacc, rdata, hq⟩

/-- The response is on its way. -/
theorem frameInFlight_of_response {s : State} {data rop rdata : Byte} (ht : s.h.transfer = .recvOpcode)
    (hr : s.h.task.request = some (s.h.reqOp, data)) (hrest : resting s) (hsent : s.hostToDevice.queue = [])
    (hq : s.deviceToHost.queue = [rop, rdata]) (hacc : rop ∈ accept s.h.reqOp) : frameInFlight s := by
  simp only [frameInFlight, ht]
  exact ⟨data, hr, .inr (.inr (.inr (.inr ⟨hrest, hsent, rop, rdata, hq, hacc⟩)))⟩

/-! ### What does not touch the link -/

/-- A link stays sound while neither its line nor its ends change and the program does not open it. -/
theorem linkSound_kept {s t : State} (hsound : LinkSound s) (hl : t.line.rate = s.line.rate)
    (hc1 : t.hostToDevice.closed = s.hostToDevice.closed) (hc2 : t.deviceToHost.closed = s.deviceToHost.closed)
    (hopening : ∀ rate args, t.h.task = .openLink rate args → s.h.task = .openLink rate args) : LinkSound t := by
  obtain ⟨open1, open2, rate, opening⟩ := hsound
  exact ⟨hc1.trans open1, hc2.trans open2, (congrArg HostRate.same hl).trans rate,
    fun r args h => opening r args (hopening r args h)⟩

/-- The link invariant is kept with the frame in flight by a step of a program that stays where it is, on a link
that stays as it is. -/
theorem linkInv_kept {s t : State} (hinv : LinkInv s) (hhost : HostInv t.h)
    (hl : t.line.rate = s.line.rate) (hc1 : t.hostToDevice.closed = s.hostToDevice.closed)
    (hc2 : t.deviceToHost.closed = s.deviceToHost.closed) (hdirect : t.h.direct = .none)
    (htask : t.h.task = s.h.task) (hresult : t.h.result = s.h.result) (hframe : frameInFlight t) :
    LinkInv t where
  sound := linkSound_kept hinv.sound hl hc1 hc2 fun _ _ h => htask.symm.trans h
  direct := hdirect
  host := hhost
  frame := hframe
  noError := by rw [noLinkError, htask, hresult]; exact hinv.noError

/-! ### The Responder's turn -/

/-- The Responder leaves the line and the ends of the channels alone. -/
theorem responderStep_link {s t : State} (h : responderStep s = some (.next t)) :
    t.line = s.line ∧ t.hostToDevice.closed = s.hostToDevice.closed ∧
      t.deviceToHost.closed = s.deviceToHost.closed := by
  rcases responderStep_cases h with ⟨_, _, _, _, _, ho⟩ | ⟨_, _, i, _, _, _, _, ho⟩ | ⟨_, _, ho⟩
  · cases ho
    exact ⟨rfl, rfl, rfl⟩
  · obtain ⟨_, _, f3, _, _, _, _, f8, f9, _⟩ := exec_frame ho.symm
    exact ⟨f9, by rw [f3]; rfl, f8⟩
  · cases ho
    simp [answerPollByLatch_eq]

/-- The command of the host's request, run with nothing else in transit, leaves the device waiting or an
accepted response on its way (R76). -/
theorem exec_keeps_frame {s t : State} {data : Byte} {i : Instr} (h : exec i s = .next t)
    (hd : decode [s.h.reqOp, data] = .ok i) (ht : s.h.transfer = .recvOpcode)
    (hr : s.h.task.request = some (s.h.reqOp, data)) (hrest : resting s) (hw : wireEmpty s) :
    frameInFlight t := by
  obtain ⟨hm, hp⟩ := hrest
  obtain ⟨hsent, hback⟩ := hw
  obtain ⟨hop, -⟩ := decode_bytes hd
  obtain ⟨f1, -, f3, -, -, f6, -⟩ := exec_frame h
  obtain ⟨-, -, -, ⟨d, rfl, hd2h, hmode⟩ | ⟨d, rfl, hd2h, hmode⟩ | ⟨-, -, hmode, r, hq⟩⟩ := exec_effects h
  · simp only [frameInFlight, f1, ht, f3, hd2h, f6, hp, hmode, wireEmpty, hsent, hback]
    exact ⟨data, hr, .inr (.inr (.inl ⟨trivial, trivial, hop.symm, trivial, trivial⟩))⟩
  · simp only [frameInFlight, f1, ht, f3, hd2h, f6, hp, hmode, wireEmpty, hsent, hback]
    exact ⟨data, hr, .inr (.inr (.inr (.inl ⟨trivial, trivial, hop.symm, trivial, trivial⟩)))⟩
  · rw [hback, hop, List.nil_append] at hq
    exact frameInFlight_of_response (by rw [f1, ht]) (by rw [f1, hr]) ⟨hmode.trans hm, f6.trans hp⟩
      (by rw [f3, hsent]) hq (by rw [f1]; exact (mem_accept _ _).mpr (.inl rfl))

/-- A poll is answered with an opcode the echo check accepts. -/
theorem answerPoll_keeps_frame {s : State} (b : Byte) (hf : frameInFlight s) (hm : s.d.mode = .polling) :
    frameInFlight (answerPoll b s) := by
  obtain ⟨ht, hp, hop, ⟨hsent, hback⟩, data, hr⟩ := frameInFlight_polling hf hm
  refine frameInFlight_of_response ht hr ⟨rfl, hp⟩ hsent (by rw [answerPoll_deviceToHost, hback]; rfl) ?_
  rw [answerPoll_h, hop]
  exact pollAnswer_accepted s.t.eotLatched

/-- The end of a SEEK answers it. -/
theorem seekDone_keeps_frame {s : State} (hf : frameInFlight s) (hm : s.d.mode = .seeking) :
    frameInFlight (seekDone s) := by
  obtain ⟨ht, hp, hop, ⟨hsent, hback⟩, data, hr⟩ := frameInFlight_seeking hf hm
  refine frameInFlight_of_response ht hr ⟨rfl, hp⟩ hsent (rop := Config.opSeek) (rdata := Config.seekAck)
    (by simp [hback]) ?_
  rw [seekDone_h, hop]
  decide

/-- The Responder keeps one frame in flight: it takes the request byte by byte, runs it, and answers. -/
theorem responderStep_keeps_frame {s t : State} (hf : frameInFlight s)
    (h : responderStep s = some (.next t)) : frameInFlight t := by
  rcases responderStep_cases h with ⟨b, rest, hm, hp, hq, ho⟩ | ⟨b, rest, i, hm, hp, hq, hd, ho⟩ | ⟨hm, _, ho⟩
  · cases ho
    obtain ⟨rfl, hback, ⟨b1, ht, rfl⟩ | ⟨ht, data, hr, rfl⟩⟩ := frameInFlight_opcode_arrives hf ⟨hm, hp⟩ hq
    · simp [frameInFlight, ht, hm, hback]
    · simp [frameInFlight, ht, hm, hback, hr]
  · obtain ⟨ht, hr, hop, rfl, hback⟩ := frameInFlight_data_arrives hf hp hq
    exact exec_keeps_frame ho.symm (hop ▸ hd) ht hr ⟨hm, rfl⟩ ⟨rfl, hback⟩
  · cases ho
    exact answerPoll_keeps_frame _ hf hm

/-- The Responder's step keeps the link invariant. -/
theorem linkInv_responderStep {s t : State} (hinv : LinkInv s) (h : responderStep s = some (.next t)) :
    LinkInv t := by
  obtain ⟨hline, hc1, hc2⟩ := responderStep_link h
  have hh := responderStep_h h
  exact linkInv_kept hinv (by rw [hh]; exact hinv.host) (by rw [hline]) hc1 hc2
    (by rw [hh, hinv.direct]) (by rw [hh]) (by rw [hh]) (responderStep_keeps_frame hinv.frame h)

/-! ### The host's turn -/

/-- On a reliable link the host may transmit wherever `send` does. -/
theorem linkInv_may_transmit {s : State} (hinv : LinkInv s) (ht : s.h.transfer.receiving = false) :
    s.h.responseOutstanding = false := by
  simp [HostState.responseOutstanding, ht, hinv.direct, DirectFrame.clear]

/-- A control point that neither opens the link nor cleans up after an error. -/
def plainPoint : Task → Bool
  | .openLink _ _ => false
  | .readCleanup (.raised _) => false
  | .writeCleanup (.raised _) => false
  | _ => true

/-- At such a point the link is not about to be opened. -/
theorem plainPoint_not_opening {task : Task} (h : plainPoint task = true) (rate : Config.LineRate)
    (args : Args) : task ≠ .openLink rate args := by
  rintro rfl
  cases h

/-- At such a point a link error could only stand in the result. -/
theorem noLinkError_of_plainPoint {h : HostState} (hp : plainPoint h.task = true)
    (hr : ∀ e, h.result = some (.raised e) → isLinkError e = false) : noLinkError h := by
  refine ⟨hr, fun e he => ?_, fun e he => ?_⟩ <;> rw [he] at hp <;> cases hp

/-- With no link error raised, a control point that sends is such a point. -/
theorem plainPoint_of_sending {h : HostState} {frame : Byte × Byte} (herr : noLinkError h)
    (hr : h.task.request = some frame) : plainPoint h.task = true := by
  obtain ⟨-, hread, hwrite⟩ := herr
  unfold plainPoint
  split
  · simp_all [Task.request]
  · exact absurd ‹_› (hread _)
  · exact absurd ‹_› (hwrite _)
  · rfl

/-- A program that is resumed with a response goes on to such a point; if it ends, it ends with what it was
ending with, or with `NoTape`. -/
theorem resume_returned_keeps_plainPoint (rop rdata : Byte) {s : State} (hp : plainPoint s.h.task = true) :
    plainPoint (resume (.returned rop rdata) s).h.task = true ∧
      ((resume (.returned rop rdata) s).h.result = s.h.result ∨
        ∀ e, (resume (.returned rop rdata) s).h.result = some (.raised e) → isLinkError e = false) := by
  cases htask : s.h.task <;> simp only [resume, htask]
  case readCheck | writeCheck => split <;> simp [plainPoint, isLinkError]
  case readPoll => unfold deliver; split <;> simp [plainPoint]
  case writeByte b => unfold written; split <;> simp [plainPoint]
  case readCleanup p | writeCleanup p =>
    cases p with
    | ended r => simp [plainPoint, cleanupResult, LoopExit.result]
    | raised e => rw [htask] at hp; cases hp
  case openLink rate args => rw [htask] at hp; cases hp
  all_goals simp [plainPoint]

/-- A control step opens the link only where the program stands at opening it, and then at the rate it
names. -/
theorem controlStep_link {s t : State} (h : controlStep s = some t) :
    (t.line = s.line ∧ t.hostToDevice = s.hostToDevice ∧ t.deviceToHost = s.deviceToHost) ∨
    ∃ rate args, s.h.task = .openLink rate args ∧ t.line.rate = .chosen rate ∧
      t.hostToDevice.closed = false ∧ t.deviceToHost.closed = false := by
  unfold controlStep at h
  split at h <;> (try split at h) <;> (try split at h) <;> simp at h <;> subst h <;> simp_all

/-- A control step leads to no opening of the link and raises no error. -/
theorem controlStep_plainPoint {s t : State} (h : controlStep s = some t) :
    plainPoint t.h.task = true ∧ (t.h.result = s.h.result ∨ t.h.result = some .toolDone) := by
  unfold controlStep at h
  split at h <;> (try split at h) <;> (try split at h) <;> simp at h <;> subst h <;> simp [plainPoint]

/-- A control step is taken between two sends, and keeps the link invariant. -/
theorem linkInv_controlStep {s t : State} (hinv : LinkInv s) (hhost : HostInv t.h)
    (ht : s.h.transfer = .none) (h : controlStep s = some t) : LinkInv t := by
  obtain ⟨-, -, hd, -, -, -, -, hq1, hq2⟩ := controlStep_frame h
  obtain ⟨-, htr, hdirect, -⟩ := controlStep_host h
  obtain ⟨hplain, hresult⟩ := controlStep_plainPoint h
  obtain ⟨⟨hm, hp⟩, hw1, hw2⟩ := frameInFlight_unsent hinv.frame (.inl ht)
  rw [ht, or_self] at htr
  rw [hinv.direct, or_self] at hdirect
  have notOpening : ∀ r args, t.h.task ≠ .openLink r args := plainPoint_not_opening hplain
  refine ⟨?_, hdirect, hhost, ?_, noLinkError_of_plainPoint hplain ?_⟩
  · rcases controlStep_link h with ⟨e1, e2, e3⟩ | ⟨r, args, htask, hr, hc1, hc2⟩
    · exact linkSound_kept hinv.sound (by rw [e1]) (by rw [e2]) (by rw [e3])
        fun r args he => absurd he (notOpening r args)
    · exact ⟨hc1, hc2, (congrArg HostRate.same hr).trans (hinv.sound.opening r args htask),
        fun r args he => absurd he (notOpening r args)⟩
  · exact frameInFlight_of_unsent (.inl htr) ⟨by rw [hd, hm], by rw [hd, hp]⟩
      ⟨by rw [hq1, hw1], by rw [hq2, hw2]⟩
  · rcases hresult with e | e <;> rw [e]
    · exact hinv.noError.1
    · exact nofun

/-- The opcode byte goes out to a Responder between two frames. -/
theorem sendOpcode_keeps_frame {s : State} {b0 b1 : Byte} {frame : DirectFrame} (hf : frameInFlight s)
    (ht : s.h.transfer = .sendOpcode b0 b1) (hop : b0 = s.h.reqOp) :
    frameInFlight (setHost { s.h with direct := frame, transfer := .sendData b1 }
      (setLinkRx (s.hostToDevice.queue ++ [b0]) s)) := by
  obtain ⟨⟨hm, hp⟩, hsent, hback⟩ := frameInFlight_unsent hf (.inr ⟨b0, b1, ht⟩)
  exact ⟨hm, hback, .inl ⟨hp, by simp [hsent, hop]⟩⟩

/-- The data byte goes out behind the opcode byte, or to a Responder that holds the opcode byte. -/
theorem sendData_keeps_frame {s : State} {b1 : Byte} {frame : DirectFrame} {trace : List FrameRecord}
    (hf : frameInFlight s) (ht : s.h.transfer = .sendData b1)
    (hr : s.h.task.request = some (s.h.reqOp, b1)) :
    frameInFlight (setHost { s.h with direct := frame, transfer := .recvOpcode, trace := trace }
      (setLinkRx (s.hostToDevice.queue ++ [b1]) s)) := by
  simp only [frameInFlight, ht] at hf
  obtain ⟨hm, hback, ⟨hp, hq⟩ | ⟨hp, hop, hq⟩⟩ := hf
  · exact ⟨b1, hr, .inl ⟨⟨hm, hp⟩, by simp [hq], hback⟩⟩
  · exact ⟨b1, hr, .inr (.inl ⟨hm, hp, hop, by simp [hq], hback⟩)⟩

/-- The last byte of the response ends the `send` with an accepted echo, and the link is at rest. -/
theorem linkInv_recvData {s : State} {r0 r1 : Byte} {rest : List Byte} (hinv : LinkInv s)
    (ht : s.h.transfer = .recvData r0) (hq : s.deviceToHost.queue = r1 :: rest) :
    LinkInv (endSend (checkEcho s.h.reqOp r0 r1) (record (.response r0 r1) (setHostRx rest s))) := by
  obtain ⟨data, hr, -⟩ := hinv.host.sends (by simp [ht])
  obtain ⟨hrest, hsent, hacc, rdata, hback⟩ :
      resting s ∧ s.hostToDevice.queue = [] ∧ r0 ∈ accept s.h.reqOp ∧ ∃ rdata, s.deviceToHost.queue = [rdata] := by
    simpa only [frameInFlight, ht] using hinv.frame
  obtain ⟨rfl, rfl⟩ := List.cons.inj (hq.symm.trans hback)
  rw [checkEcho, if_pos hacc]
  set s1 : State := record (.response r0 r1) (setHostRx [] s) with hs1
  obtain ⟨-, htr, -, -, -, hdirect⟩ := endSend_h (.returned r0 r1) s1
  obtain ⟨hplain, hresult⟩ := resume_returned_keeps_plainPoint r0 r1
    (s := setHost { s1.h with outstanding := false, transfer := .none } s1)
    (plainPoint_of_sending hinv.noError hr)
  refine ⟨?_, hdirect.trans hinv.direct, hostInv_endSend _ _, ?_, noLinkError_of_plainPoint hplain ?_⟩
  · exact linkSound_kept hinv.sound (by simp [hs1]) (by simp [hs1]) (by simp [hs1])
      fun r args he => absurd he (plainPoint_not_opening hplain r args)
  · refine frameInFlight_of_unsent (.inl htr) ?_ ?_ <;> simp_all [resting, wireEmpty]
  · rcases hresult with e | e
    · intro err herr
      exact hinv.noError.1 err (e.symm.trans herr)
    · exact e

/-- The opcode byte of a `send` goes out, and the link invariant is kept. -/
theorem linkInv_sendOpcodeStep {s t : State} {b0 b1 : Byte} (hinv : LinkInv s) (hhost : HostInv t.h)
    (ht : s.h.transfer = .sendOpcode b0 b1) (h : sendOpcodeStep b0 b1 s = .next t) : LinkInv t := by
  obtain ⟨data, -, hm⟩ := hinv.host.sends (by simp [ht])
  rw [ht] at hm
  have e := sendOpcodeStep_cases b0 b1 s
  rw [hinv.sound.open1, linkInv_may_transmit hinv (by rw [ht]; rfl)] at e
  simp only [Bool.false_eq_true, false_and, and_false, false_or, true_and] at e
  cases e.symm.trans h
  exact linkInv_kept hinv hhost rfl rfl rfl (by simp [hinv.direct, DirectFrame.afterSend]) rfl rfl
    (sendOpcode_keeps_frame hinv.frame ht hm.1)

/-- So is it when the data byte goes out. -/
theorem linkInv_sendDataStep {s t : State} {b1 : Byte} (hinv : LinkInv s) (hhost : HostInv t.h)
    (ht : s.h.transfer = .sendData b1) (h : sendDataStep b1 s = .next t) : LinkInv t := by
  obtain ⟨data, hr, hm⟩ := hinv.host.sends (by simp [ht])
  rw [ht] at hm
  cases hm
  have e := sendDataStep_cases b1 s
  rw [hinv.sound.open1, linkInv_may_transmit hinv (by rw [ht]; rfl)] at e
  simp only [Bool.false_eq_true, false_and, and_false, false_or, true_and] at e
  cases e.symm.trans h
  exact linkInv_kept hinv hhost rfl rfl rfl (by simp [hinv.direct, DirectFrame.afterSend]) rfl rfl
    (sendData_keeps_frame hinv.frame ht hr)

/-- The first byte that comes in is an opcode the echo check accepts, and the link invariant is kept. -/
theorem linkInv_recvOpcodeStep {s t : State} (hinv : LinkInv s) (hhost : HostInv t.h)
    (ht : s.h.transfer = .recvOpcode) (h : recvOpcodeStep s = some t) : LinkInv t := by
  rcases recvOpcodeStep_cases h with ⟨hc, -⟩ | ⟨r0, rest, -, hq, rfl⟩
  · exact absurd (hc.symm.trans hinv.sound.open2) (by decide)
  · obtain ⟨hrest, hsent, hacc, rdata, rfl⟩ := frameInFlight_response_arrives hinv.frame ht hq
    exact linkInv_kept hinv hhost rfl rfl rfl hinv.direct rfl rfl ⟨hrest, hsent, hacc, rdata, rfl⟩

/-- The second byte ends the `send`, and the link invariant is kept. -/
theorem linkInv_recvDataStep {s t : State} {r0 : Byte} (hinv : LinkInv s)
    (ht : s.h.transfer = .recvData r0) (h : recvDataStep r0 s = some t) : LinkInv t := by
  rcases recvDataStep_cases h with ⟨hc, -⟩ | ⟨r1, rest, -, hq, rfl⟩
  · exact absurd (hc.symm.trans hinv.sound.open2) (by decide)
  · exact linkInv_recvData hinv ht hq

/-- The host's step keeps the link invariant: a `send` is begun at rest, goes on, or ends with its response. -/
theorem linkInv_hostStep {s t : State} (hinv : LinkInv s) (h : hostStep s = some (.next t)) : LinkInv t := by
  have hhost := hostInv_hostStep hinv.host h
  rcases hostStep_cases h with ⟨op, data, ht, hr, ho⟩ | ⟨_, ht, hr, hc, ho⟩ | ⟨b0, b1, ht, ho⟩ |
    ⟨b1, ht, ho⟩ | ⟨_, ht, hc, ho⟩ | ⟨r0, _, ht, hc, ho⟩
  · obtain ⟨hrest, hw⟩ := frameInFlight_unsent hinv.frame (.inl ht)
    rcases beginSend_cases op data s with ⟨_, e⟩ | ⟨_, e⟩ <;> rw [e] at ho <;> cases ho
    exact linkInv_kept hinv hhost rfl rfl rfl hinv.direct rfl rfl
      (frameInFlight_of_unsent (.inr ⟨op, data, rfl⟩) hrest hw)
  · cases ho
    exact linkInv_controlStep hinv hhost ht hc
  · exact linkInv_sendOpcodeStep hinv hhost ht ho.symm
  · exact linkInv_sendDataStep hinv hhost ht ho.symm
  · cases ho
    exact linkInv_recvOpcodeStep hinv hhost ht hc
  · cases ho
    exact linkInv_recvDataStep hinv ht hc

/-! ### The events' turn -/

/-- With no program running the link is at rest between two sends. -/
theorem linkInv_idle {s : State} (hinv : LinkInv s) (htask : s.h.task = .idle) :
    s.h.outstanding = false ∧ s.h.transfer = .none ∧ resting s ∧ wireEmpty s := by
  obtain ⟨ho, ht⟩ := hostInv_idle hinv.host htask
  exact ⟨ho, ht, frameInFlight_unsent hinv.frame (.inl ht)⟩

/-- Starting a program keeps the link invariant: a command line that is accepted stands at opening the link at
the rate it names, and no error but `InvalidArgument` is raised. -/
theorem launch_keeps {p : Program} {s : State} (hf : faultFree (.event (.launch p)) = true) :
    (∀ rate args, (launch p s).h.task = .openLink rate args → (HostRate.chosen rate).same = true) ∧
      noLinkError (launch p s).h := by
  cases p with
  | commandLine args stdin =>
    simp only [launch]
    split <;> simp_all [noLinkError, freshRun, isLinkError, faultFree, sameRate]
  | _ => simp [launch, noLinkError, freshRun]

/-- An event that brings no link fault and disturbs nothing keeps the link invariant. -/
theorem linkInv_envStep {e : Event} {s t : State} (hinv : LinkInv s) (hf : faultFree (.event e) = true)
    (hu : undisturbing (.event e) = true) (h : envStep e s = .next t) : LinkInv t := by
  have hhost := hostInv_envStep hinv.host h
  cases e <;> simp only [envStep, Host.Outcome.next.injEq] at h
  case endOfTape | tapePresent level | recEnable level | cancel =>
    subst h
    exact linkInv_kept hinv hhost rfl rfl rfl hinv.direct rfl rfl hinv.frame
  case seekDone =>
    subst h
    split
    · exact linkInv_kept hinv hinv.host rfl rfl rfl hinv.direct rfl rfl (seekDone_keeps_frame hinv.frame ‹_›)
    · exact hinv
  case readByte b =>
    subst h
    split
    · exact linkInv_kept hinv hinv.host rfl rfl rfl hinv.direct rfl rfl (answerPoll_keeps_frame b hinv.frame ‹_›)
    · exact hinv
  case hostConnect rate =>
    subst h
    split
    · rename_i htask
      obtain ⟨-, -, hrest, hw⟩ := linkInv_idle hinv htask
      exact ⟨⟨rfl, rfl, hf, hinv.sound.opening⟩, rfl, hostInv_of_betweenSends rfl rfl,
        frameInFlight_of_unsent (.inl rfl) hrest hw, hinv.noError⟩
    · exact hinv
  case callSend op data =>
    rcases callSend_cases h with ⟨-, rfl | ⟨htask, rfl⟩⟩
    · exact hinv
    · obtain ⟨-, -, hrest, hw⟩ := linkInv_idle hinv htask
      exact ⟨linkSound_kept hinv.sound rfl rfl rfl nofun, hinv.direct, hhost,
        frameInFlight_of_unsent (.inr ⟨op, data, rfl⟩) hrest hw, noLinkError_of_plainPoint rfl nofun⟩
  case launch p =>
    subst h
    split
    · rename_i htask
      obtain ⟨-, ht, hrest, hw⟩ := linkInv_idle hinv htask
      obtain ⟨hopening, herr⟩ := launch_keeps (s := s) hf
      obtain ⟨-, htr, hdirect, -⟩ := launch_host p s
      rw [if_pos htask] at hhost
      rw [launch_eq]
      exact ⟨⟨hinv.sound.open1, hinv.sound.open2, hinv.sound.rate, hopening⟩, hdirect.trans hinv.direct, hhost,
        frameInFlight_of_unsent (.inl (htr.trans ht)) hrest hw, herr⟩
    · exact hinv
  case linkFault f => cases hf
  case deviceReset | processStart | directWrite b | directRead => cases hu

/-! ### Every step, and every run from reset -/

/-- At the same rate, taking the turn off the schedule keeps the link invariant. -/
theorem linkInv_settle {s : State} (hinv : LinkInv s) : LinkInv (settle s) := by
  rw [settle_same hinv.sound.rate]
  exact linkInv_kept hinv hinv.host rfl rfl rfl hinv.direct rfl rfl hinv.frame

/-- Settles O48: in the settled state neither the Responder, nor the host, nor such an event breaks the
invariant. -/
theorem reliableLinkKeepsOneFrameInFlight : Obligations.ReliableLinkKeepsOneFrameInFlight := by
  intro s t hinv hf hu h
  have hinv := linkInv_settle hinv
  rcases step_cases h with ⟨_, hr⟩ | ⟨_, hh⟩ | ⟨e, he, henv⟩ | ⟨_, rfl⟩
  · exact linkInv_responderStep hinv hr
  · exact linkInv_hostStep hinv hh
  · rw [he] at hf hu
    exact linkInv_envStep hinv hf hu henv
  · exact hinv

/-- A run that goes on from a first step. -/
theorem run_succ_next {k : Nat} {s t : State} (h : Sys2Proof.core.run (k + 1) s = .next t) :
    ∃ u, step s = .next u ∧ Sys2Proof.core.run k u = .next t := by
  cases hs : step s with
  | next u => exact ⟨u, rfl, (run_step hs rfl).symm.trans h⟩
  | fault r => cases r
  | refused r => simp [Host.Core.run, Sys2Proof.core, hs] at h

/-- What every step in a turn of some kind keeps, a run keeps whose turns are all of that kind. -/
theorem run_keeps {P : State → Prop} {kind : Turn → Prop}
    (hstep : ∀ s t, P s → kind (nextTurn s) → step s = .next t → P t) {k : Nat} {s t : State} (hs : P s)
    (hturns : ∀ i, i < k → kind (turnAt i s)) (h : Sys2Proof.core.run k s = .next t) : P t := by
  induction k generalizing s with
  | zero =>
    cases h
    exact hs
  | succ k ih =>
    obtain ⟨u, hu, hrun⟩ := run_succ_next h
    refine ih (hstep s u hs ?_ hu) (fun i hi => ?_) hrun
    · exact turnAt_zero s ▸ hturns 0 k.succ_pos
    · exact turnAt_step hu i ▸ hturns (i + 1) (Nat.succ_lt_succ hi)

/-- The state after reset meets the link invariant, whatever is scripted. -/
theorem linkInv_reset (script : List Turn) : LinkInv { State.reset with script := script } where
  sound := ⟨rfl, rfl, rfl, nofun⟩
  direct := rfl
  host := hostInv_of_betweenSends rfl rfl
  frame := ⟨⟨rfl, rfl⟩, rfl, rfl⟩
  noError := ⟨nofun, nofun, nofun⟩

/-- Settles O50: every run on a reliable, undisturbed link from reset keeps the link invariant, which excludes
both errors. -/
theorem reliableRunsRaiseNoLinkError : Obligations.ReliableRunsRaiseNoLinkError := by
  intro script k t ⟨_, hfree⟩ hquiet hrun e he
  have hinv : LinkInv t := run_keeps (kind := fun turn => faultFree turn = true ∧ undisturbing turn = true)
    (fun s t hinv hkind => reliableLinkKeepsOneFrameInFlight s t hinv hkind.1 hkind.2) (linkInv_reset script)
    (fun i hi => ⟨hfree i hi, hquiet i hi⟩) hrun
  have herr := hinv.noError.1 e he
  constructor
  · rintro rfl
    cases herr
  · rintro x y rfl
    cases herr

end Sys2Proof.Proofs
end

section
/-! The ends of a `send` (R173 to R175) and what cannot end it or join it (R171, R177, R178, R264). -/

namespace Sys2Proof.Proofs

open Sys2Proof.Machine Sys2Proof.Safety Sys2Proof.Laws

/-! ### How the program takes an error -/

/-- A program whose `send` raises takes the error as its control point says, and delivers nothing (R193,
R222). -/
theorem endSend_raised (e : HostError) (s : State) :
    takesError s.h.task e (endSend (.raised e) s).h ∧
      (endSend (.raised e) s).h.sink = s.h.sink ∧ (endSend (.raised e) s).h.echoSink = s.h.echoSink ∧
      (endSend (.raised e) s).h.report = s.h.report := by
  refine ⟨?_, resume_raised e _⟩
  unfold endSend
  cases htask : s.h.task
  case readCleanup p | writeCleanup p => cases p <;> simp [takesError, resume, htask, cleanupResult, cleanupRaises]
  all_goals simp [takesError, resume, htask]

/-- A transmission on a closed channel, or the end of the channel that brings the response, ends the `send`
with `LinkIO` (R173). -/
theorem hostTurn_closed {s : State}
    (h : (s.hostToDevice.closed = true ∧
        ((∃ b0 b1, s.h.transfer = .sendOpcode b0 b1) ∨ ∃ b1, s.h.transfer = .sendData b1)) ∨
      (s.deviceToHost.closed = true ∧ (s.h.transfer = .recvOpcode ∨ ∃ r0, s.h.transfer = .recvData r0))) :
    takeTurn .host s = .next (endSend (.raised .linkIO) s) := by
  rcases h with ⟨hc, ⟨b0, b1, ht⟩ | ⟨b1, ht⟩⟩ | ⟨hc, ht | ⟨r0, ht⟩⟩
  · simp [takeTurn, hostStep, ht, sendOpcodeStep, hostSend, hc]
  · simp [takeTurn, hostStep, ht, sendDataStep, hostSend, hc]
  · simp [takeTurn, hostStep, ht, recvOpcodeStep, hostRecv, hc]
  · simp [takeTurn, hostStep, ht, recvDataStep, hostRecv, hc]

/-- Settles O40: the `send` ends with `LinkIO` where it stands, and the program takes the error. -/
theorem closedChannelRaisesLinkIO : Obligations.ClosedChannelRaisesLinkIO := by
  intro s h
  obtain ⟨hout, htr, -, -, htrace, -⟩ := endSend_h (.raised .linkIO) s
  obtain ⟨htakes, hsink, hecho, hreport⟩ := endSend_raised .linkIO s
  exact ⟨_, hostTurn_closed h, hout, htr, hsink, hecho, hreport, htrace, endSend_hostToDevice _ _,
    endSend_deviceToHost _ _, htakes⟩

/-- Settles O39: the whole response is taken, and the `send` ends as the echo check says. -/
theorem echoCheckAcceptsOnlyTheRequestsOpcode : Obligations.EchoCheckAcceptsOnlyTheRequestsOpcode := by
  intro s r0 r1 rest ht hc hq
  have hstep := hostTurn_ends_send ht hc hq
  obtain ⟨hout, htr, -, -, htrace, -⟩ :=
    endSend_h (checkEcho s.h.reqOp r0 r1) (record (.response r0 r1) (setHostRx rest s))
  refine ⟨_, hstep, hout, htr, by rw [endSend_deviceToHost]; rfl, htrace, fun hacc op data htask => ?_,
    fun hrej => ?_⟩
  · have hreturns := hostTurn_returns_to_caller htask ht hc hq ((mem_accept _ _).mpr hacc)
    rw [Host.Outcome.next.inj (hstep.symm.trans hreturns)]
    exact ⟨rfl, rfl⟩
  · rw [checkEcho, if_neg (mt (mem_accept _ _).mp hrej)]
    exact endSend_raised _ (record (.response r0 r1) (setHostRx rest s))

/-! ### Waiting -/

/-- On an open, empty channel a `send` that waits has no step (R177). -/
theorem hostTurn_waits {s : State} (hc : s.deviceToHost.closed = false) (hq : s.deviceToHost.queue = [])
    (ht : s.h.transfer = .recvOpcode ∨ ∃ r0, s.h.transfer = .recvData r0) : takeTurn .host s = .next s := by
  obtain ht | ⟨r0, ht⟩ := ht
  · simp [takeTurn, hostStep, ht, recvOpcodeStep, hostRecv, hc, hq]
  · simp [takeTurn, hostStep, ht, recvDataStep, hostRecv, hc, hq]

/-- Between two sends, the host's turn takes the control step of a point that sends nothing. -/
theorem hostTurn_control {s t : State} (ht : s.h.transfer = .none) (hr : s.h.task.request = none)
    (h : controlStep s = some t) : takeTurn .host s = .next t := by
  simp [takeTurn, hostStep, ht, hr, h]

/-- A running program is moved by no event but the start of another host process. -/
theorem envStep_task {e : Event} {s t : State} (h : envStep e s = .next t) (hrun : s.h.task ≠ .idle)
    (he : e ≠ .processStart) : t.h.task = s.h.task := by
  rcases envStep_host h with ht | ⟨_, ht⟩ | ⟨hstart, _⟩ | ⟨hidle, _⟩
  · rw [ht]
  · rw [ht]
  · exact absurd hstart he
  · exact absurd hidle hrun

/-- A running program is moved only in the host's turn, or dropped by the start of another host process. -/
theorem step_task {s t : State} (h : step s = .next t) (hrun : s.h.task ≠ .idle) (hn : nextTurn s ≠ .host)
    (hp : ¬ eventTurn .processStart s) : t.h.task = s.h.task := by
  rcases step_cases h with ⟨_, hr⟩ | ⟨hhost, _⟩ | ⟨e, he, henv⟩ | ⟨_, rfl⟩
  · rw [responderStep_h hr, settle_h]
  · exact absurd hhost hn
  · exact envStep_task (s := settle s) henv hrun (by rintro rfl; exact hp he)
  · rfl

/-- Settles O43: a waiting `send` has no step, a timed wait ends by its control step, and in other turns a
running program stays where it is. -/
theorem receiveHasNoTimeout : Obligations.ReceiveHasNoTimeout := by
  refine ⟨fun s hc hq ht => hostTurn_waits hc hq ht, fun s ht => ⟨fun hw => ?_, fun hw => ?_⟩,
    fun s t hw h hn hp => step_task h ?_ hn hp⟩
  · exact hostTurn_control ht (by rw [hw]; rfl) (by rw [controlStep, hw]; rfl)
  · exact hostTurn_control ht (by rw [hw]; rfl) (by rw [controlStep, hw]; rfl)
  · obtain hw | hw := hw <;> simp [hw]

/-! ### What a `send` may not transmit -/

/-- On an open channel no byte of a `send` goes out before the previous response is in (R264). -/
theorem hostTurn_send_refused {s : State} (hc : s.hostToDevice.closed = false)
    (ht : (∃ b0 b1, s.h.transfer = .sendOpcode b0 b1) ∨ ∃ b1, s.h.transfer = .sendData b1)
    (hout : s.h.responseOutstanding = true) : takeTurn .host s = .refused .writeWhileResponseOutstanding := by
  obtain ⟨b0, b1, ht⟩ | ⟨b1, ht⟩ := ht
  · simp [takeTurn, hostStep, ht, sendOpcodeStep, hostSend, hc, hout]
  · simp [takeTurn, hostStep, ht, sendDataStep, hostSend, hc, hout]

/-! ### Cancellation -/

/-- `s` with the cancellation level `c`. -/
def withCancel (c : Bool) (s : State) : State := { s with h := { s.h with cancel := c } }

/-- A program resumed after its `send` does not read the cancellation level. -/
theorem resume_withCancel (c : Bool) (o : SendOutcome) (s : State) :
    resume o (withCancel c s) = withCancel c (resume o s) := by
  cases htask : s.h.task <;> cases o <;> simp only [resume, withCancel, htask]
  case readCheck.returned | writeCheck.returned => split <;> rfl
  all_goals rfl

/-- Nor does the end of the `send`. -/
theorem endSend_withCancel (c : Bool) (o : SendOutcome) (s : State) :
    endSend o (withCancel c s) = withCancel c (endSend o s) :=
  resume_withCancel c o (setHost { s.h with outstanding := false, transfer := .none } s)

/-- Nor does the transmission of a byte. -/
theorem hostTurn_transmits_withCancel (c : Bool) {s : State}
    (ht : (∃ b0 b1, s.h.transfer = .sendOpcode b0 b1) ∨ ∃ b1, s.h.transfer = .sendData b1) :
    takeTurn .host (withCancel c s) = mapNext (withCancel c) (takeTurn .host s) := by
  cases hc : s.hostToDevice.closed with
  | true =>
    rw [hostTurn_closed (s := s) (.inl ⟨hc, ht⟩), hostTurn_closed (s := withCancel c s) (.inl ⟨hc, ht⟩),
      endSend_withCancel, mapNext]
  | false =>
    cases hr : s.h.responseOutstanding with
    | true =>
      rw [hostTurn_send_refused hc ht hr, hostTurn_send_refused (s := withCancel c s) hc ht hr, mapNext]
    | false =>
      obtain ⟨b0, b1, ht⟩ | ⟨b1, ht⟩ := ht
      · rw [hostTurn_sends_opcode ht hc hr, hostTurn_sends_opcode (s := withCancel c s) ht hc hr]
        rfl
      · rw [hostTurn_sends_data ht hc hr, hostTurn_sends_data (s := withCancel c s) ht hc hr]
        rfl

/-- Nor does the wait for one. -/
theorem hostTurn_receives_withCancel (c : Bool) {s : State}
    (ht : s.h.transfer = .recvOpcode ∨ ∃ r0, s.h.transfer = .recvData r0) :
    takeTurn .host (withCancel c s) = mapNext (withCancel c) (takeTurn .host s) := by
  cases hc : s.deviceToHost.closed with
  | true =>
    rw [hostTurn_closed (s := s) (.inr ⟨hc, ht⟩), hostTurn_closed (s := withCancel c s) (.inr ⟨hc, ht⟩),
      endSend_withCancel, mapNext]
  | false =>
    cases hq : s.deviceToHost.queue with
    | nil => rw [hostTurn_waits hc hq ht, hostTurn_waits (s := withCancel c s) hc hq ht, mapNext]
    | cons r rest =>
      obtain ht | ⟨r0, ht⟩ := ht
      · rw [hostTurn_receives_opcode ht hc hq, hostTurn_receives_opcode (s := withCancel c s) ht hc hq]
        rfl
      · rw [hostTurn_ends_send ht hc hq, hostTurn_ends_send (s := withCancel c s) ht hc hq, mapNext,
          ← endSend_withCancel]
        rfl

/-- So no step of a `send` in progress reads it (R178). -/
theorem hostTurn_withCancel (c : Bool) {s : State} (ht : s.h.transfer ≠ .none) :
    takeTurn .host (withCancel c s) = mapNext (withCancel c) (takeTurn .host s) := by
  cases htr : s.h.transfer with
  | none => exact absurd htr ht
  | sendOpcode b0 b1 => exact hostTurn_transmits_withCancel c (.inl ⟨b0, b1, htr⟩)
  | sendData b1 => exact hostTurn_transmits_withCancel c (.inr ⟨b1, htr⟩)
  | recvOpcode => exact hostTurn_receives_withCancel c (.inl htr)
  | recvData r0 => exact hostTurn_receives_withCancel c (.inr ⟨r0, htr⟩)

/-- Settles O44: a cancellation changes its level only, which no step of a `send` reads. -/
theorem cancellationCannotInterruptSend : Obligations.CancellationCannotInterruptSend :=
  ⟨fun _ h => step_eventTurn h, fun _ c ht => hostTurn_withCancel c ht⟩

/-! ### A second request -/

/-- Settles O41: each refusal is the first check of the call or of `HostSend`; a half-written frame of the host's
own leaves no response outstanding. -/
theorem secondSendIsRefused : Obligations.SecondSendIsRefused := by
  refine ⟨fun s op data he ho => ?_, fun s hn hc ht hd => ?_, fun s b he => ⟨fun hc => ?_, fun hc hout => ?_⟩,
    fun s b0 b1 ht hc hd => ?_⟩
  · rw [step_eventTurn he, envStep, callSend, settle_h, if_pos ho]
  · rw [step_eq, hn]
    refine hostTurn_send_refused (s := settle s) hc ht ((responseOutstanding_iff _).mpr ?_)
    exact hd.elim .inl fun h => .inr (.inl h)
  · rw [step_eventTurn he, envStep, directWrite, hostSend, if_pos (by exact hc)]
  · have hout : s.h.responseOutstanding = true := (responseOutstanding_iff _).mpr (by tauto)
    rw [step_eventTurn he, envStep, directWrite, hostSend, if_neg (by simp [hc]), settle_h, if_pos hout]
  · have hmay : s.h.responseOutstanding = false := by
      simp [HostState.responseOutstanding, ht, hd, Transfer.receiving, DirectFrame.clear]
    rw [hostTurn_sends_opcode ht hc hmay, hd]
    rfl

end Sys2Proof.Proofs
end

section
/-! What a `send` returns on a quiet link (R170, R172): the response of the command it names, which reads
nothing but the registers and the senses. -/

namespace Sys2Proof.Proofs

open Sys2Proof.Machine Sys2Proof.Safety Sys2Proof.Laws

/-- Every command is executed (R94). -/
theorem exec_completes (i : Instr) (s : State) : ∃ e, exec i s = .next e := by
  cases i <;> exact ⟨_, rfl⟩

/-- `s` with another host, Responder, channel to the device and script. -/
def amid (h : HostState) (d : ResponderState) (c : Channel) (script : List Turn) (s : State) : State :=
  { s with h := h, d := d, hostToDevice := c, script := script }

/-- A command that answers in one step neither reads nor writes any of these (R121). -/
theorem exec_amid {i : Instr} (hseek : ∀ d, i ≠ .seek d) (hdata : ∀ d, i ≠ .data d) (h : HostState)
    (d : ResponderState) (c : Channel) (script : List Turn) {s e : State} (he : exec i s = .next e) :
    exec i (amid h d c script s) = .next (amid h d c script e) := by
  cases i <;> cases he
  case seek d => exact absurd rfl (hseek d)
  case data d => exact absurd rfl (hdata d)
  case getStatus d => cases hf : operandFlag d <;> simp only [exec, execGetStatus, amid, hf] <;> rfl
  case write d | stopWrite d =>
    cases hw : s.t.writeEnabled <;> simp only [exec, execWrite, execStopWrite, amid, hw] <;> rfl
  case startWrite d =>
    cases hw : canStartWrite s.t s.sense <;> simp only [exec, execStartWrite, amid, hw] <;> rfl
  all_goals rfl

/-- The response of a command that answers in one step, on its way back over the link that was quiet. -/
theorem answer_onItsWay {s e : State} {op data rdata : Byte} {i : Instr} (waiting rest : List Turn)
    (hquiet : Quiet s) (he : exec i s = .next e) (hq : e.deviceToHost.queue = [op, rdata]) :
    ResponseOnItsWay op rdata (amid (requestTaken op data waiting s).h { s.d with phase := .opcode, op := op }
      { s.hostToDevice with queue := [] } rest e) := by
  obtain ⟨-, -, -, -, -, -, -, hclosed, hline, -⟩ := exec_frame he
  exact {
    resting := ⟨hquiet.resting.1, rfl⟩
    taken := rfl
    queue := hq
    open1 := hquiet.open1
    open2 := hclosed.trans hquiet.open2
    rate := (congrArg (fun l : LineState => l.rate.same) hline).trans hquiet.rate
    task := ⟨op, data, rfl⟩
    transfer := rfl
    accepted := (mem_accept op op).mpr (.inl rfl)
    direct := rfl }

/-- A command that answers in one step leaves a quiet link with its own response on it. -/
theorem quiet_exec_answers {s e : State} {op data : Byte} {i : Instr} (hquiet : Quiet s)
    (hd : decode [op, data] = .ok i) (he : exec i s = .next e) (hseek : ∀ d, i ≠ .seek d)
    (hdata : ∀ d, i ≠ .data d) : ∃ rdata, e.deviceToHost.queue = [op, rdata] := by
  obtain ⟨-, hempty⟩ := hquiet.wireEmpty
  obtain ⟨-, -, -, ⟨d, rfl, -⟩ | ⟨d, rfl, -⟩ | ⟨-, -, -, r, hq⟩⟩ := exec_effects he
  · exact absurd rfl (hseek d)
  · exact absurd rfl (hdata d)
  · rw [hempty, (decode_bytes hd).1] at hq
    exact ⟨r, hq⟩

/-- A call of `send` with a command that answers in one step returns the command's response. -/
theorem send_returns_answer {s : State} {op data : Byte} {i : Instr} (hquiet : Quiet s)
    (hd : decode [op, data] = .ok i) (hseek : ∀ d, i ≠ .seek d) (hdata : ∀ d, i ≠ .data d)
    (hs : s.script = [.event (.callSend op data), .host, .responder, .host, .responder, .host, .host]) :
    ∃ (t e : State) (rdata : Byte), Sys2Proof.core.run 7 s = .next t ∧ exec i s = .next e ∧
      e.deviceToHost.queue = [op, rdata] ∧ t.t = e.t ∧ t.writeData = e.writeData ∧
      t.h.result = some (.sendReturned op rdata) ∧
      t.h.trace = s.h.trace ++ [.request op data, .response op rdata] ∧ Quiet t := by
  obtain ⟨e, he⟩ := exec_completes i s
  obtain ⟨rdata, hq⟩ := quiet_exec_answers hquiet hd he hseek hdata
  obtain ⟨t, hresponse, hregs, hwritten, hquiet', hresult, htrace⟩ :=
    run_response (answer_onItsWay (data := data) [.host, .host] [.host, .host] hquiet he hq) rfl
  refine ⟨t, e, rdata, ?_, he, hq, hregs, hwritten, hresult, ?_, hquiet'⟩
  · exact run_request hquiet hs hd (exec_amid hseek hdata _ _ _ _ he) hresponse
  · rw [htrace]
    exact List.append_assoc s.h.trace [.request op data] [.response op rdata]

/-! ### SEEK -/

/-- SEEK's dispatch step reads neither its data byte nor the registers (R112). -/
theorem exec_seek (data : Byte) (s : State) :
    exec (.seek data) s =
      .next (setMode .seeking (setTransport { s.t with motorOn := false, ffOn := true } s)) := rfl

/-- The end of the positioning answers a SEEK (R112, R227). -/
theorem envStep_seekDone_seeking {s : State} (hm : s.d.mode = .seeking) :
    envStep .seekDone s = .next (seekDone s) := by
  rw [envStep, if_pos hm]

/-- The quiet link's SEEK as it positions: motor off, fast-forward on. -/
def positioning (data : Byte) (waiting rest : List Turn) (s : State) : State :=
  { setMode .seeking (setTransport { s.t with motorOn := false, ffOn := true }
      (requestTaken 0x02 data waiting s)) with script := rest }

/-- And its response, once the positioning has ended. -/
theorem seekAnswer_onItsWay {s : State} (data : Byte) (waiting rest : List Turn) (hquiet : Quiet s) :
    ResponseOnItsWay 0x02 0x00 (seekDone (positioning data waiting rest s)) where
  resting := ⟨rfl, rfl⟩
  taken := rfl
  queue := by
    obtain ⟨-, hempty⟩ := hquiet.wireEmpty
    simp [positioning, requestTaken, midExchange, hempty]
  open1 := hquiet.open1
  open2 := hquiet.open2
  rate := hquiet.rate
  task := ⟨0x02, data, rfl⟩
  transfer := rfl
  accepted := (mem_accept 0x02 0x02).mpr (.inl rfl)
  direct := rfl

/-- A call of `send` with SEEK returns its acknowledgement once the positioning has ended. -/
theorem send_returns_seek_ack {s : State} {data : Byte} (hquiet : Quiet s)
    (hs : s.script = [.event (.callSend 0x02 data), .host, .responder, .host, .responder, .event .seekDone,
      .host, .host]) :
    ∃ t : State, Sys2Proof.core.run 8 s = .next t ∧ t.t = { s.t with motorOn := false, ffOn := false } ∧
      t.writeData = s.writeData ∧ t.h.result = some (.sendReturned 0x02 0x00) ∧
      t.h.trace = s.h.trace ++ [.request 0x02 data, .response 0x02 0x00] ∧ Quiet t := by
  obtain ⟨t, hresponse, hregs, hwritten, hquiet', hresult, htrace⟩ :=
    run_response (seekAnswer_onItsWay data [.event .seekDone, .host, .host] [.host, .host] hquiet) rfl
  refine ⟨t, ?_, hregs, hwritten, hresult, ?_, hquiet'⟩
  · refine run_request hquiet hs (decode_of_row data (by decide : rowOf 0x02 = some .seek))
      (exec_seek data _) ?_
    exact run_scripted (turn := .event .seekDone) hquiet.rate rfl (envStep_seekDone_seeking rfl) hresponse
  · rw [htrace]
    exact List.append_assoc s.h.trace [.request 0x02 data] [.response 0x02 0x00]

/-- Settles O46: an opcode other than 2 and 8 decodes to a command that answers in one step, and SEEK answers
when its positioning ends. -/
theorem sendReturnsTheCommandsResponse : Obligations.SendReturnsTheCommandsResponse := by
  refine ⟨fun s op data i hquiet hseek hdata hd hs => ?_, fun s data hquiet hs => send_returns_seek_ack hquiet hs⟩
  obtain ⟨hop, -⟩ := decode_bytes hd
  refine send_returns_answer hquiet hd (fun d hi => hseek ?_) (fun d hi => hdata ?_) hs <;>
    rw [← hop, hi, Instr.opcode]

end Sys2Proof.Proofs
end

section
/-! The end of a loop's cleanup (R193, R232): which error it leaves the program with. -/

namespace Sys2Proof.Proofs

open Sys2Proof.Machine Sys2Proof.Safety Sys2Proof.Laws

/-- A cleanup whose `send` has ended ends the program, with the result that wins (D27). -/
theorem endSend_cleanup {s : State} {p : LoopExit} (h : s.h.task = .readCleanup p ∨ s.h.task = .writeCleanup p)
    (o : SendOutcome) :
    (endSend o s).h.task = .idle ∧ (endSend o s).h.result = some (cleanupResult p o) := by
  obtain h | h := h <;> simp [endSend, resume, h]

/-- The response to a request other than a poll fails the echo check with any other opcode (R175). -/
theorem checkEcho_mismatch {op rop : Byte} (rdata : Byte) (hne : rop ≠ op) (hpoll : op ≠ 0x08) :
    checkEcho op rop rdata = .raised (.echoMismatch op rop) :=
  if_neg fun hmem => ((mem_accept op rop).mp hmem).elim hne fun h => hpoll h.1

/-- Settles O57: the cleanup's `send` ends with its response, with a mismatch or on a closed channel, and its
error is the result only if the loop was ending normally. -/
theorem firstErrorWinsOverCleanupError : Obligations.FirstErrorWinsOverCleanupError := by
  intro s p htask
  refine ⟨fun r0 r1 rest ht hc hq => ?_, fun hclosed => ?_⟩
  · obtain ⟨hidle, hresult⟩ := endSend_cleanup (s := record (.response r0 r1) (setHostRx rest s)) htask
      (checkEcho s.h.reqOp r0 r1)
    refine ⟨_, hostTurn_ends_send ht hc hq, hidle, fun hecho => ?_, fun hne hpoll => ?_⟩
    · rw [hresult, hecho, checkEcho_same, cleanupResult]
    · rw [hresult, checkEcho_mismatch r1 hne hpoll]
      cases p <;> rfl
  · obtain ⟨hidle, hresult⟩ := endSend_cleanup htask (.raised .linkIO)
    refine ⟨_, hostTurn_closed hclosed, hidle, ?_⟩
    cases p <;> exact hresult

end Sys2Proof.Proofs
end

section
/-! The command line's checks (R198, R199): which command lines go on to open the link, and what the start of
one does. -/

namespace Sys2Proof.Proofs

open Sys2Proof.Machine Sys2Proof.Safety Sys2Proof.Laws

/-- Each line rate is the one its number names. -/
@[simp] theorem lineRateOfNat_value (rate : Config.LineRate) :
    Config.lineRateOfNat rate.value = some rate := by
  cases rate <;> rfl

/-- A number is a supported rate exactly if it is some line rate's number. -/
theorem supported_iff_value (n : Nat) :
    n ∈ [4800, 9600, 19200, 38400, 57600, 115200] ↔ ∃ rate : Config.LineRate, rate.value = n := by
  constructor
  · intro h
    simp only [List.mem_cons, List.not_mem_nil, or_false] at h
    obtain rfl | rfl | rfl | rfl | rfl | rfl := h
    exacts [⟨.b4800, rfl⟩, ⟨.b9600, rfl⟩, ⟨.b19200, rfl⟩, ⟨.b38400, rfl⟩, ⟨.b57600, rfl⟩, ⟨.b115200, rfl⟩]
  · rintro ⟨rate, rfl⟩
    cases rate <;> decide

/-- Any other number names no line rate. -/
theorem lineRateOfNat_eq_none {n : Nat} (h : n ∉ [4800, 9600, 19200, 38400, 57600, 115200]) :
    Config.lineRateOfNat n = none := by
  simp only [List.mem_cons, List.not_mem_nil, or_false, not_or] at h
  simp [Config.lineRateOfNat, h]

/-- What a command line must meet (R198): a supported rate, a track of 1 to 4 if any, and not both modes. -/
def GoodArgs (args : Args) : Prop :=
  args.baudRate ∈ [4800, 9600, 19200, 38400, 57600, 115200] ∧
    (∀ k : Nat, args.track = some k → 1 ≤ k ∧ k ≤ 4) ∧ ¬ (args.read = true ∧ args.write = true)

/-- At a supported rate the tool's check finds nothing wrong exactly if the track and the modes are good. -/
theorem badArgument_of_rate {args : Args} {rate : Config.LineRate} (h : rate.value = args.baudRate) :
    badArgument args = none ↔
      (∀ k : Nat, args.track = some k → 1 ≤ k ∧ k ≤ 4) ∧ ¬ (args.read = true ∧ args.write = true) := by
  rw [badArgument, ← h, lineRateOfNat_value]
  cases args.track with
  | none => simp
  | some k =>
    by_cases hk : 1 ≤ k ∧ k ≤ 4
    · have hinside : ¬ (k = 0 ∨ 4 < k) := by omega
      simp [hinside, hk]
    · have houtside : k = 0 ∨ 4 < k := by omega
      simp [houtside, hk]

/-- The tool's check finds nothing wrong exactly with a good command line. -/
theorem badArgument_eq_none_iff (args : Args) : badArgument args = none ↔ GoodArgs args := by
  by_cases hrate : args.baudRate ∈ [4800, 9600, 19200, 38400, 57600, 115200]
  · obtain ⟨rate, hvalue⟩ := (supported_iff_value _).mp hrate
    rw [badArgument_of_rate hvalue, GoodArgs, and_iff_right hrate]
  · refine iff_of_false ?_ fun hgood => hrate hgood.1
    simp [badArgument, lineRateOfNat_eq_none hrate]

/-- A good command line goes on to open the link at the rate it names. -/
theorem launch_goodArgs {args : Args} (h : GoodArgs args) (stdin : List Byte) (s : State) :
    ∃ rate : Config.LineRate, rate.value = args.baudRate ∧
      launch (.commandLine args stdin) s =
        setHost (freshRun stdin args.echo (.openLink rate args) s.h) s := by
  obtain ⟨rate, hvalue⟩ := (supported_iff_value _).mp h.1
  refine ⟨rate, hvalue, ?_⟩
  rw [launch, (badArgument_eq_none_iff args).mpr h, ← hvalue, lineRateOfNat_value]

/-- Any other ends at once with `InvalidArgument`. -/
theorem launch_badArgs {args : Args} (h : ¬ GoodArgs args) (stdin : List Byte) (s : State) :
    ∃ which : BadArgument, launch (.commandLine args stdin) s =
      finish (.raised (.invalidArgument which)) (setHost (freshRun [] false .idle s.h) s) := by
  obtain ⟨which, hwhich⟩ := Option.ne_none_iff_exists'.mp (mt (badArgument_eq_none_iff args).mp h)
  exact ⟨which, by rw [launch, hwhich]⟩

/-- While no program runs, the step whose event starts one is its start. -/
theorem step_launch {s : State} {p : Program} (he : eventTurn (.launch p) s) (hidle : s.h.task = .idle) :
    step s = .next (launch p (settle s)) := by
  rw [step_eventTurn he, envStep, settle_h, if_pos hidle]

/-- The start of a program sends nothing and leaves the link as it is. -/
theorem launch_link (p : Program) (s : State) :
    (launch p s).hostToDevice = s.hostToDevice ∧ (launch p s).deviceToHost = s.deviceToHost ∧
      (launch p s).line = s.line := by
  rw [launch_eq]
  exact ⟨rfl, rfl, rfl⟩

/-- Settles O58: the start of a program leaves the link alone, and only a good command line goes on to open
it. -/
theorem invalidArgumentBeforeTheLinkOpens : Obligations.InvalidArgumentBeforeTheLinkOpens := by
  refine ⟨fun s args stdin he hidle => ?_, fun s he hidle => ?_⟩
  · obtain ⟨hsent, hback, hline⟩ := launch_link (.commandLine args stdin) (settle s)
    obtain ⟨-, htransfer, -, htrace, -⟩ := launch_host (.commandLine args stdin) (settle s)
    refine ⟨_, step_launch he hidle, hsent, hback, hline, htransfer, htrace, fun hgood => ?_, fun hbad => ?_⟩
    · obtain ⟨rate, hvalue, heq⟩ := launch_goodArgs hgood stdin (settle s)
      rw [heq]
      exact ⟨⟨rate, hvalue, rfl⟩, rfl, rfl, rfl⟩
    · obtain ⟨which, heq⟩ := launch_badArgs hbad stdin (settle s)
      rw [heq]
      exact ⟨rfl, which, rfl⟩
  · obtain ⟨hsent, hback, hline⟩ := launch_link .unparsed (settle s)
    obtain ⟨-, -, -, htrace, -⟩ := launch_host .unparsed (settle s)
    exact ⟨_, step_launch he hidle, hsent, hback, hline, htrace, rfl, rfl⟩

end Sys2Proof.Proofs
end

section
/-! The command line's control points (R197): opening the link, the commands requested, the status report, and
the loop requested. -/

namespace Sys2Proof.Proofs

open Sys2Proof.Machine Sys2Proof.Safety Sys2Proof.Laws

/-- The command line goes on whatever the data byte of the response is; that of GET_STATUS it reports (D38,
D47). -/
theorem endSend_commandLine (rop rdata : Byte) (args : Args) (s : State) :
    (s.h.task = .track args → (endSend (.returned rop rdata) s).h.task = .seek args) ∧
      (s.h.task = .seek args → (endSend (.returned rop rdata) s).h.task = .status args) ∧
      (s.h.task = .status args → (endSend (.returned rop rdata) s).h.task = .modes args ∧
        (endSend (.returned rop rdata) s).h.report = some (statusReport rdata)) := by
  refine ⟨fun h => ?_, fun h => ?_, fun h => ?_⟩ <;> simp [endSend, resume, h]

/-- Between two sends, the host's turn opens the link at the rate named, and sends nothing. -/
theorem hostTurn_opens_link {s : State} {rate : Config.LineRate} {args : Args} (ht : s.h.transfer = .none)
    (htask : s.h.task = .openLink rate args) :
    takeTurn .host s = .next (goTo (.track args) (connect (.chosen rate) s)) :=
  hostTurn_control ht (by rw [htask, Task.request]) (by rw [controlStep, htask])

/-- At an option's control point it begins the option's frame if the option is given, and passes the point over
if not. -/
theorem hostTurn_option {s t : State} {op data : Byte} {given : Bool} (hb : betweenSends s)
    (hr : s.h.task.request = if given then some (op, data) else none) (hc : controlStep s = some t) :
    takeTurn .host s = .next (if given then requesting op data s else t) := by
  cases given with
  | true => exact hostTurn_begins_request hb hr
  | false => exact hostTurn_control hb.1 hr hc

/-- Past the options it goes on to the loop requested, or ends the tool. -/
theorem hostTurn_modes {s : State} {args : Args} (hb : betweenSends s) (htask : s.h.task = .modes args) :
    takeTurn .host s = .next (if args.read then goTo .readCheck s
      else if args.write then goTo .writeCheck s else finish .toolDone s) := by
  refine hostTurn_control hb.1 (by rw [htask, Task.request]) ?_
  rw [controlStep, htask]
  simp only [apply_ite some]

/-- Settles O59: between two sends the host's turn does what the control point asks for, and a response that
echoes its request moves the command line on. -/
theorem commandLineSendsItsFramesInOrder : Obligations.CommandLineSendsItsFramesInOrder := by
  refine ⟨fun s args hb => ⟨fun rate htask => ?_, fun k htask hk => ?_, fun htask hnone => ?_,
    fun htask => ?_, fun htask => ?_, fun htask => ?_⟩, fun s args r rest ht hc hq => ?_⟩
  · exact ⟨_, hostTurn_opens_link hb.1 htask, rfl, rfl, rfl, rfl, rfl, rfl, rfl⟩
  · exact hostTurn_begins_request hb (by rw [htask, Task.request, hk]; rfl)
  · exact hostTurn_control hb.1 (by rw [htask, Task.request, hnone]; rfl) (by rw [controlStep, htask]; rfl)
  · exact hostTurn_option hb (by rw [htask]; rfl) (by rw [controlStep, htask]; rfl)
  · exact hostTurn_option hb (by rw [htask]; rfl) (by rw [controlStep, htask]; rfl)
  · rw [hostTurn_modes hb htask]
    cases args.read <;> cases args.write <;> rfl
  · have hstep := hostTurn_ends_send ht hc hq
    rw [checkEcho_same] at hstep
    exact ⟨_, hstep, endSend_commandLine _ r args (record (.response s.h.reqOp r) (setHostRx rest s))⟩

end Sys2Proof.Proofs
end


section
/-! What a line of mismatched rates does to the bytes in transit (R230, R262 item 1). -/

namespace Sys2Proof.Proofs

open Sys2Proof.Machine Sys2Proof.Safety Sys2Proof.Laws

/-- The noise is one link fault at the oldest byte: it is replaced (R230 b), or a byte is inserted before it
(R230 c). -/
theorem garble_replaces_or_inserts (n : Nat) (queue : List Byte) :
    garble n queue = queue.set 0 (Config.noiseByte n) ∨ garble n queue = Config.noiseByte n :: queue := by
  unfold garble
  split
  · exact .inr rfl
  · cases queue <;> exact .inl rfl

/-- At different rates the line garbles whatever it delivers. -/
theorem delivered_different {line : LineState} (h : ¬ line.rate.same = true) (n : Nat) (queue : List Byte) :
    delivered line n queue = garble n queue :=
  if_neg h

/-- At different rates each channel is garbled by a noise value of its own, and besides that only the turn is
taken. -/
theorem settle_different {s : State} (h : ¬ SameLineRate s) :
    settle s = { dropTurn s with
      hostToDevice := { s.hostToDevice with queue := garble s.line.noise s.hostToDevice.queue }
      deviceToHost := { s.deviceToHost with queue := garble (s.line.noise + 1) s.deviceToHost.queue }
      line := { s.line with noise := s.line.noise + 2 } } := by
  have hrate : ¬ s.line.rate.same = true := h
  simp [settle, lineNoise, delivered_different hrate, hrate]

/-- Settles O24: at the same rate `settle` only takes the turn, and at different rates what it does to each
channel is one replaced or inserted byte. -/
theorem lineDeliversBytesAsSentAtTheSameRate : Obligations.LineDeliversBytesAsSentAtTheSameRate :=
  ⟨fun _ hsame => settle_same hsame, fun _ hdifferent =>
    ⟨_, _, _, _, _, settle_different hdifferent, garble_replaces_or_inserts _ _, garble_replaces_or_inserts _ _⟩⟩

end Sys2Proof.Proofs
end

section
/-! While a SEEK or a DATA poll is in progress (R96, R271): the Responder reads no byte, and the mode ends only
by what completes it. -/

namespace Sys2Proof.Proofs

open Sys2Proof.Machine Sys2Proof.Safety Sys2Proof.Laws

/-- Where the Responder is not idle, its only step is to complete a poll on the latch. -/
theorem responderStep_busy {s : State} {o : Host.Outcome State Fault Refusal} (hbusy : s.d.mode ≠ .idle)
    (h : responderStep s = some o) :
    s.d.mode = .polling ∧ s.t.eotLatched = true ∧ o = .next (answerPollByLatch s) := by
  rcases responderStep_cases h with ⟨_, _, hidle, _⟩ | ⟨_, _, _, hidle, _⟩ | hpoll
  · exact absurd hidle hbusy
  · exact absurd hidle hbusy
  · exact hpoll

/-- Seeking or Polling, the Responder's turn takes no byte of `link_rx` and writes only the mode of its own
state. -/
theorem responderTurn_busy {s t : State} (hbusy : s.d.mode ≠ .idle) (h : takeTurn .responder s = .next t) :
    t.hostToDevice = s.hostToDevice ∧ t.d.phase = s.d.phase ∧ t.d.op = s.d.op ∧ t.t = s.t := by
  rw [takeTurn] at h
  cases hr : responderStep s with
  | none =>
    rw [hr] at h
    cases h
    exact ⟨rfl, rfl, rfl, rfl⟩
  | some o =>
    obtain ⟨-, -, rfl⟩ := responderStep_busy hbusy hr
    rw [hr] at h
    cases h
    exact ⟨rfl, rfl, rfl, rfl⟩

/-- An environment step that ends a mode makes it Idle, and is a device reset or the event the mode waits
for. -/
theorem envStep_ends_mode {e : Event} {s t : State} (h : envStep e s = .next t)
    (hmode : t.d.mode ≠ s.d.mode) :
    t.d.mode = .idle ∧
      (e = .deviceReset ∨ (s.d.mode = .seeking ∧ e = .seekDone) ∨
       (s.d.mode = .polling ∧ ∃ b, e = .readByte b)) := by
  rcases envStep_cases h with ⟨_, rfl⟩ | ⟨he, rfl⟩ | ⟨he, hm, rfl⟩ | ⟨b, he, hm, rfl⟩ | ⟨_, hd, _⟩
  · exact absurd rfl hmode
  · exact ⟨rfl, .inl he⟩
  · exact ⟨rfl, .inr (.inl ⟨hm, he⟩)⟩
  · exact ⟨rfl, .inr (.inr ⟨hm, b, he⟩)⟩
  · exact absurd (congrArg _ hd) hmode

/-- Settles O27: a busy Responder's only step completes a poll on the latch, the host has no part in the mode,
and an event ends it only as its completion or as a device reset. -/
theorem busyResponderReadsNoByte : Obligations.BusyResponderReadsNoByte := by
  refine ⟨fun s t => responderTurn_busy, fun s t hbusy h hmode => ?_⟩
  rcases step_cases h with ⟨ht, hr⟩ | ⟨_, hh⟩ | ⟨e, ht, he⟩ | ⟨_, rfl⟩
  · obtain ⟨hm, hl, ho⟩ := responderStep_busy (s := settle s) hbusy hr
    cases ho
    exact ⟨rfl, .inr (.inr ⟨hm, .inr ⟨ht, hl⟩⟩)⟩
  · obtain ⟨_, _, hd, _⟩ := hostStep_frame hh
    exact absurd (congrArg _ hd) hmode
  · obtain ⟨hidle, rfl | ⟨hm, rfl⟩ | ⟨hm, b, rfl⟩⟩ := envStep_ends_mode he hmode
    · exact ⟨hidle, .inl ht⟩
    · exact ⟨hidle, .inr (.inl ⟨hm, ht⟩)⟩
    · exact ⟨hidle, .inr (.inr ⟨hm, .inl ⟨b, ht⟩⟩)⟩
  · exact absurd rfl hmode

end Sys2Proof.Proofs
end

section
/-! Motor, write mode and sense levels (R22, R24, R26, R27): what changes them. -/

namespace Sys2Proof.Proofs

open Sys2Proof.Machine Sys2Proof.Safety Sys2Proof.Laws

/-- What a command can do to motor and write mode: START_MOTOR, STOP_MOTOR and SEEK set the motor, START_WRITE
and STOP_WRITE both where their precondition holds, and no other command touches either (R111 to R119). -/
theorem exec_motor_writeMode {i : Instr} {s t : State} (h : exec i s = .next t) :
    (t.t.motorOn = s.t.motorOn ∧ t.t.writeEnabled = s.t.writeEnabled) ∨
    (∃ d, i = .startMotor d ∧ t.t.motorOn = true ∧ t.t.writeEnabled = s.t.writeEnabled) ∨
    (∃ d, (i = .stopMotor d ∨ i = .seek d) ∧ t.t.motorOn = false ∧ t.t.writeEnabled = s.t.writeEnabled) ∨
    (∃ d, i = .startWrite d ∧ canStartWrite s.t s.sense = true ∧ t.t.motorOn = true ∧
      t.t.writeEnabled = true) ∨
    (∃ d, i = .stopWrite d ∧ s.t.writeEnabled = true ∧ t.t.motorOn = false ∧ t.t.writeEnabled = false) := by
  cases i <;> cases h
  case startMotor d => exact .inr (.inl ⟨d, rfl, rfl, rfl⟩)
  case stopMotor d => exact .inr (.inr (.inl ⟨d, .inl rfl, rfl, rfl⟩))
  case seek d => exact .inr (.inr (.inl ⟨d, .inr rfl, rfl, rfl⟩))
  case startWrite d =>
    cases hc : canStartWrite s.t s.sense with
    | true => exact .inr (.inr (.inr (.inl ⟨d, rfl, rfl, rfl, rfl⟩)))
    | false => exact .inl ⟨rfl, rfl⟩
  case stopWrite d =>
    cases hw : s.t.writeEnabled with
    | true => exact .inr (.inr (.inr (.inr ⟨d, rfl, rfl, by simp, by simp⟩)))
    | false => exact .inl ⟨by simp, by simp [hw]⟩
  case setTrack d =>
    rw [respond_t, setTransport_t]
    split
    · split <;> exact .inl ⟨rfl, rfl⟩
    · exact .inl ⟨rfl, rfl⟩
  case getStatus d => rw [respond_t]; split <;> exact .inl ⟨rfl, rfl⟩
  case write d => rw [respond_t]; split <;> exact .inl ⟨rfl, rfl⟩
  all_goals exact .inl ⟨rfl, rfl⟩

/-- The Responder's step runs the command of the frame whose data byte arrives, or leaves `T` alone. -/
theorem responderStep_dispatches {s t : State} (h : responderStep (settle s) = some (.next t)) :
    t.t = s.t ∨
    ∃ i data rest, frameArrives i.opcode data s ∧
      exec i (completeFrame (setLinkRx rest (settle s))) = .next t := by
  rcases responderStep_cases h with ⟨_, _, _, _, _, ho⟩ | ⟨data, rest, i, hm, hp, hq, hd, ho⟩ | ⟨_, _, ho⟩
  · cases ho
    exact .inl rfl
  · obtain ⟨hop, -⟩ := decode_bytes hd
    exact .inr ⟨i, data, rest, ⟨hm, hp, hop.symm, by rw [hq, List.head?_cons]⟩, ho.symm⟩
  · cases ho
    exact .inl rfl

/-- An event other than a device reset touches neither motor nor write mode. -/
theorem envStep_motor_writeMode {e : Event} {s t : State} (h : envStep e s = .next t)
    (hreset : e ≠ .deviceReset) :
    t.t.motorOn = s.t.motorOn ∧ t.t.writeEnabled = s.t.writeEnabled := by
  rcases envStep_cases h with ⟨_, rfl⟩ | ⟨he, _⟩ | ⟨_, _, rfl⟩ | ⟨_, _, _, rfl⟩ | ⟨ht, _⟩
  · exact ⟨rfl, rfl⟩
  · exact absurd he hreset
  · exact ⟨rfl, rfl⟩
  · exact ⟨rfl, rfl⟩
  · rw [ht]
    exact ⟨rfl, rfl⟩

/-- A device reset apart, a step dispatches a command or touches neither motor nor write mode. -/
theorem step_dispatches {s t : State} (h : step s = .next t) (hreset : ¬ eventTurn .deviceReset s) :
    (responderTurn s ∧ ∃ i data rest, frameArrives i.opcode data s ∧
      exec i (completeFrame (setLinkRx rest (settle s))) = .next t) ∨
    (t.t.motorOn = s.t.motorOn ∧ t.t.writeEnabled = s.t.writeEnabled) := by
  rcases step_cases h with ⟨ht, hr⟩ | ⟨_, hh⟩ | ⟨e, ht, he⟩ | ⟨_, rfl⟩
  · obtain hkept | hexec := responderStep_dispatches hr
    · rw [hkept]
      exact .inr ⟨rfl, rfl⟩
    · exact .inl ⟨ht, hexec⟩
  · obtain ⟨hkept, -⟩ := hostStep_frame hh
    rw [hkept]
    exact .inr ⟨rfl, rfl⟩
  · exact .inr (envStep_motor_writeMode (s := settle s) he fun hdev => hreset (hdev ▸ ht))
  · exact .inr ⟨rfl, rfl⟩

/-- START_WRITE's precondition holds only with a tape present and recording enabled (R116). -/
theorem canStartWrite_senses {tr : TransportState} {sense : SenseState} (h : canStartWrite tr sense = true) :
    sense.tapePresent = true ∧ sense.recEnable = true := by
  simp only [canStartWrite, recordEnabled, Bool.and_eq_true] at h
  obtain ⟨⟨-, htape⟩, hrec⟩ := h
  exact ⟨htape, hrec⟩

/-- The Responder's step reads the sense levels at most (R26, R27). -/
theorem responderStep_sense {s t : State} (h : responderStep s = some (.next t)) : t.sense = s.sense := by
  rcases responderStep_cases h with ⟨_, _, _, _, _, ho⟩ | ⟨_, _, _, _, _, _, _, ho⟩ | ⟨_, _, ho⟩
  · cases ho
    rfl
  · obtain ⟨-, hsense, -⟩ := exec_frame ho.symm
    exact hsense
  · cases ho
    rfl

/-- A link fault leaves the sense levels alone. -/
theorem applyFault_sense (f : LinkFault) (s : State) : (applyFault f s).sense = s.sense := by
  rcases f with ⟨_ | _, _⟩ | ⟨_ | _, _, _⟩ | ⟨_ | _, _, _⟩ | ⟨_ | _⟩ | _ <;> rfl

/-- An event that changes a sense level is the level's own (R226). -/
theorem envStep_sense {e : Event} {s t : State} (h : envStep e s = .next t) (hne : t.sense ≠ s.sense) :
    ∃ level, e = .tapePresent level ∨ e = .recEnable level := by
  cases e
  case tapePresent level => exact ⟨level, .inl rfl⟩
  case recEnable level => exact ⟨level, .inr rfl⟩
  case callSend op data =>
    rw [callSend_eq h] at hne
    exact absurd rfl hne
  case directWrite b => obtain rfl | ⟨-, -, -, rfl⟩ := directWrite_cases h <;> exact absurd rfl hne
  case directRead =>
    cases h
    obtain hd | ⟨-, hd⟩ | ⟨_, _, -, -, -, hd⟩ := directRead_cases s <;> rw [hd] at hne <;> exact absurd rfl hne
  case launch p =>
    cases h
    rw [launch_eq] at hne
    split at hne <;> exact absurd rfl hne
  case linkFault f =>
    cases h
    exact absurd (applyFault_sense f s) hne
  case seekDone => cases h; split at hne <;> exact absurd rfl hne
  case readByte b => cases h; split at hne <;> exact absurd rfl hne
  case hostConnect rate => cases h; split at hne <;> exact absurd rfl hne
  all_goals
    cases h
    exact absurd rfl hne

/-- A sense level changes only by its event. -/
theorem step_sense {s t : State} (h : step s = .next t) (hne : t.sense ≠ s.sense) :
    ∃ level : Bool, eventTurn (.tapePresent level) s ∨ eventTurn (.recEnable level) s := by
  rcases step_cases h with ⟨_, hr⟩ | ⟨_, hh⟩ | ⟨e, ht, he⟩ | ⟨_, rfl⟩
  · exact absurd (responderStep_sense hr) hne
  · obtain ⟨-, hsense, -⟩ := hostStep_frame hh
    exact absurd hsense hne
  · obtain ⟨level, rfl | rfl⟩ := envStep_sense he hne
    · exact ⟨level, .inl ht⟩
    · exact ⟨level, .inr ht⟩
  · exact absurd rfl hne

/-- Settles O34: motor and write mode change only where a command is dispatched, and then by what that command
can do to them; a sense event is run. -/
theorem motorWriteModeAndSensesChangeOnlyByTheirCauses :
    Obligations.MotorWriteModeAndSensesChangeOnlyByTheirCauses := by
  refine ⟨fun s t h hreset => ?_, fun s level => ⟨fun hs => step_eventTurn hs, fun hs => step_eventTurn hs⟩,
    fun s t => step_sense⟩
  obtain ⟨ht, i, data, rest, ha, hexec⟩ | ⟨hmotor, hwrite⟩ := step_dispatches h hreset
  · rcases exec_motor_writeMode hexec with ⟨hmotor, hwrite⟩ | ⟨_, rfl, hon, hwrite⟩ | ⟨_, hi, hoff, hwrite⟩ |
      ⟨_, rfl, hcan, hon, hwrite⟩ | ⟨_, rfl, hwas, hoff, hwrite⟩
    · exact ⟨absurd hmotor, absurd hwrite⟩
    · exact ⟨fun _ => ⟨ht, data, .inl ⟨hon, .inl ha⟩⟩, absurd hwrite⟩
    · obtain rfl | rfl := hi
      · exact ⟨fun _ => ⟨ht, data, .inr ⟨hoff, .inl ha⟩⟩, absurd hwrite⟩
      · exact ⟨fun _ => ⟨ht, data, .inr ⟨hoff, .inr (.inl ha)⟩⟩, absurd hwrite⟩
    · obtain ⟨htape, hrec⟩ := canStartWrite_senses hcan
      exact ⟨fun _ => ⟨ht, data, .inl ⟨hon, .inr ha⟩⟩, fun _ => ⟨ht, data, .inl ⟨hwrite, ha, htape, hrec⟩⟩⟩
    · exact ⟨fun _ => ⟨ht, data, .inr ⟨hoff, .inr (.inr ⟨ha, hwas⟩)⟩⟩,
        fun _ => ⟨ht, data, .inr ⟨hwrite, ha⟩⟩⟩
  · exact ⟨absurd hmotor, absurd hwrite⟩

end Sys2Proof.Proofs
end

section
/-! Encoder and decoder (R78, R82, R90) undo each other, and every frame has one row of the table. -/

namespace Sys2Proof.Proofs

open Sys2Proof.Laws

/-- A well-formed instruction's opcode selects its own row, whichever the instruction (R82). -/
theorem wf_selects_row : ∀ i : Instr, RowMatch.Statement i
  | .getStatus d => RowMatch.getStatus d
  | .setTrack d => RowMatch.setTrack d
  | .seek d => RowMatch.seek d
  | .startMotor d => RowMatch.startMotor d
  | .stopMotor d => RowMatch.stopMotor d
  | .write d => RowMatch.write d
  | .startWrite d => RowMatch.startWrite d
  | .stopWrite d => RowMatch.stopWrite d
  | .data d => RowMatch.data d
  | .dataEot d => RowMatch.dataEot d
  | .resetEot d => RowMatch.resetEot d
  | .reserved0B d => RowMatch.reserved0B d
  | .reserved0C0F op d => RowMatch.reserved0C0F op d
  | .reserved101F op d => RowMatch.reserved101F op d
  | .reserved203F op d => RowMatch.reserved203F op d
  | .reserved407F op d => RowMatch.reserved407F op d
  | .reserved80FF op d => RowMatch.reserved80FF op d

/-- An instruction's row makes the instruction again of its two bytes: the encoding drops no operand bit. -/
theorem instrOfRow_row (i : Instr) : instrOfRow (RowMatch.row i) i.opcode i.dataByte = i := by
  cases i <;> rfl

/-- Settles O4: the opcode byte selects the instruction's row, and the row gives the instruction back. -/
theorem decodeOfEncodeIsIdentity : Obligations.DecodeOfEncodeIsIdentity := by
  intro i hwf
  have hdecode := decode_of_row i.dataByte (wf_selects_row i hwf)
  rwa [instrOfRow_row] at hdecode

/-- The row an opcode selects makes a well-formed instruction of it, whatever the data byte (R77, R82). -/
theorem instrOfRow_wf {op : Byte} {r : Row} (data : Byte) (h : rowOf op = some r) :
    (instrOfRow r op data).wf = true := by
  have hrows : ∀ op : Byte, ((rowOf op).all fun r => (instrOfRow r op 0).wf) = true := by decide
  have hwf : (instrOfRow r op 0).wf = true := by simpa [h] using hrows op
  cases r <;> exact hwf

/-- Settles O5: what decodes is two bytes with the instruction of their row, which has these bytes and is
well-formed. -/
theorem encodeOfDecodeIsIdentity : Obligations.EncodeOfDecodeIsIdentity := by
  intro bytes i h
  obtain ⟨op, data, r, rfl, hrow, rfl⟩ := decode_ok h
  obtain ⟨hop, hdata⟩ := decode_bytes h
  exact ⟨instrOfRow_wf data hrow, by rw [encode, hop, hdata, codecEncode]⟩

/-- The row an opcode selects is a line of the table that fits it (R73). -/
theorem rowOf_fits {op : Byte} {row : Row} (h : rowOf op = some row) :
    ∃ r ∈ opcodeTable, r.fits op = true ∧ r.row = row := by
  obtain ⟨r, hfind, hrow⟩ := Option.map_eq_some_iff.mp h
  exact ⟨r, List.mem_of_find?_eq_some hfind, List.find?_some (p := fun r : TableRow => r.fits op) hfind, hrow⟩

/-- Two lines of the table that fit one opcode are the same line (R82). -/
theorem fits_unique {op : Byte} {r r' : TableRow} (hr : r ∈ opcodeTable) (hr' : r' ∈ opcodeTable)
    (hfit : r.fits op = true) (hfit' : r'.fits op = true) : r' = r := by
  by_contra hne
  have hsymm : Std.Symm fun r r' : TableRow => ¬ (r.fits op = true ∧ r'.fits op = true) :=
    ⟨fun _ _ hnot hboth => hnot hboth.symm⟩
  exact (rows_do_not_overlap op).forall hr' hr hne ⟨hfit', hfit⟩

/-- Settles O3: the row the decoder takes fits, and no two rows overlap. -/
theorem everyFrameFitsExactlyOneRow : Obligations.EveryFrameFitsExactlyOneRow := by
  intro op data
  obtain ⟨row, hrow, hdecode⟩ := decode_total op data
  obtain ⟨r, hmem, hfit, rfl⟩ := rowOf_fits hrow
  exact ⟨r, hmem, hfit, fun r' hmem' hfit' => fits_unique hmem hmem' hfit hfit', hdecode⟩

/-- Settles O6: each number is cut into its two bytes, whose row is looked up. -/
theorem writtenOutFramesDecode : Obligations.WrittenOutFramesDecode := by
  unfold Obligations.WrittenOutFramesDecode
  decide

end Sys2Proof.Proofs
end

section
/-! The device invariant (R23, R28): motor and fast-forward exclude each other, and fast-forward is on exactly
while a SEEK is positioning. -/

namespace Sys2Proof.Proofs

open Sys2Proof.Machine Sys2Proof.Safety Sys2Proof.Laws

/-- The invariant reads motor, fast-forward and mode only. -/
theorem deviceInv_congr {s t : State} (hinv : DeviceInv s) (hmotor : t.t.motorOn = s.t.motorOn)
    (hff : t.t.ffOn = s.t.ffOn) (hmode : t.d.mode = s.d.mode) : DeviceInv t :=
  ⟨by rw [hmotor, hff]; exact hinv.exclusive, by rw [hff, hmode]; exact hinv.ffWhileSeeking⟩

/-- With fast-forward off it asks only that no SEEK is positioning. -/
theorem deviceInv_of_ff_off {s : State} (hff : s.t.ffOn = false) (hmode : s.d.mode ≠ .seeking) : DeviceInv s :=
  ⟨by simp [hff], by simp [hff, hmode]⟩

/-- Outside a SEEK fast-forward is off. -/
theorem deviceInv_ff_off {s : State} (hinv : DeviceInv s) (hmode : s.d.mode ≠ .seeking) : s.t.ffOn = false := by
  rw [← Bool.not_eq_true]
  exact mt hinv.ffWhileSeeking.mp hmode

/-- Only SEEK turns fast-forward on, and then the motor is off and the mode Seeking (R112). -/
theorem exec_ff {i : Instr} {s t : State} (h : exec i s = .next t) :
    t.t.ffOn = s.t.ffOn ∨ t.t.ffOn = false ∨ (t.t.motorOn = false ∧ t.t.ffOn = true ∧ t.d.mode = .seeking) := by
  cases i <;> cases h
  case seek d => exact .inr (.inr ⟨rfl, rfl, rfl⟩)
  case startMotor d => exact .inr (.inl rfl)
  case startWrite d =>
    rw [respond_t]
    split
    · exact .inr (.inl rfl)
    · exact .inl rfl
  case setTrack d =>
    rw [respond_t, setTransport_t]
    split
    · split <;> exact .inl rfl
    · exact .inl rfl
  case getStatus d | write d | stopWrite d => rw [respond_t]; split <;> exact .inl rfl
  all_goals exact .inl rfl

/-- A command run by an idle Responder keeps the invariant: fast-forward was off, and what SEEK turns on it
holds by its mode. -/
theorem deviceInv_exec {i : Instr} {s t : State} (hinv : DeviceInv s) (hidle : s.d.mode = .idle)
    (h : exec i s = .next t) : DeviceInv t := by
  have hoff : s.t.ffOn = false := deviceInv_ff_off hinv (by simp [hidle])
  have off (hff : t.t.ffOn = false) : DeviceInv t := by
    obtain ⟨-, -, -, ⟨d, rfl, -⟩ | ⟨d, -, -, hmode⟩ | ⟨-, -, hmode, -⟩⟩ := exec_effects h
    · cases h
      cases hff
    · exact deviceInv_of_ff_off hff (by simp [hmode])
    · exact deviceInv_of_ff_off hff (by simp [hmode, hidle])
  obtain hff | hff | ⟨hmotor, hff, hmode⟩ := exec_ff h
  · exact off (hff.trans hoff)
  · exact off hff
  · exact ⟨by simp [hmotor], by simp [hff, hmode]⟩

/-- The end of a poll keeps the invariant, since no SEEK was positioning. -/
theorem deviceInv_answerPoll {s : State} (b : Byte) (hinv : DeviceInv s) (hpoll : s.d.mode = .polling) :
    DeviceInv (answerPoll b s) := by
  have hoff : s.t.ffOn = false := deviceInv_ff_off hinv (by simp [hpoll])
  exact deviceInv_of_ff_off hoff nofun

/-- The Responder's step keeps the invariant. -/
theorem deviceInv_responderStep {s t : State} (hinv : DeviceInv s) (h : responderStep s = some (.next t)) :
    DeviceInv t := by
  rcases responderStep_cases h with ⟨_, _, _, _, _, ho⟩ | ⟨_, rest, i, hidle, _, _, _, ho⟩ | ⟨hpoll, _, ho⟩
  · cases ho
    exact deviceInv_congr hinv rfl rfl rfl
  · exact deviceInv_exec (s := completeFrame (setLinkRx rest s)) (deviceInv_congr hinv rfl rfl rfl) hidle ho.symm
  · cases ho
    exact deviceInv_answerPoll (s := (draw8 s).2) _ (deviceInv_congr hinv rfl rfl rfl) hpoll

/-- An event keeps it: the end of a SEEK turns fast-forward off with the mode, a poll ends outside a SEEK, and a
device reset turns everything off. -/
theorem deviceInv_envStep {e : Event} {s t : State} (hinv : DeviceInv s) (h : envStep e s = .next t) :
    DeviceInv t := by
  rcases envStep_cases h with ⟨_, rfl⟩ | ⟨_, rfl⟩ | ⟨_, _, rfl⟩ | ⟨_, _, hpoll, rfl⟩ | ⟨ht, hd, _⟩
  · exact deviceInv_congr hinv rfl rfl rfl
  · exact deviceInv_of_ff_off rfl nofun
  · exact deviceInv_of_ff_off rfl nofun
  · exact deviceInv_answerPoll _ hinv hpoll
  · exact deviceInv_congr hinv (by rw [ht]) (by rw [ht]) (by rw [hd])

/-- Settles O30: neither the Responder nor an event breaks the invariant, and the host leaves the device
alone. -/
theorem motorAndFastForwardStayExclusive : Obligations.MotorAndFastForwardStayExclusive := by
  intro s t hinv h
  have hinv : DeviceInv (settle s) := deviceInv_congr hinv rfl rfl rfl
  rcases step_cases h with ⟨_, hr⟩ | ⟨_, hh⟩ | ⟨e, _, he⟩ | ⟨_, rfl⟩
  · exact deviceInv_responderStep hinv hr
  · obtain ⟨ht, -, hd, -⟩ := hostStep_frame hh
    exact deviceInv_congr hinv (by rw [ht]) (by rw [ht]) (by rw [hd])
  · exact deviceInv_envStep hinv he
  · exact hinv

end Sys2Proof.Proofs
end

section
/-! The iterations of the loops (R191, R192, R194, R196): the poll and its byte, the WRITE and its result, the
top of an iteration, and the cleanup's frame. -/

namespace Sys2Proof.Proofs

open Sys2Proof.Machine Sys2Proof.Safety Sys2Proof.Laws

/-- A polled byte is delivered whichever of the two opcodes it comes with, and DATA_EOT alone ends the loop
(R191). -/
theorem endSend_polled (rop b : Byte) {s : State} (htask : s.h.task = .readPoll) :
    (endSend (.returned rop b) s).h.sink = s.h.sink ++ [b] ∧
      (endSend (.returned rop b) s).h.task =
        if rop = 0x09 then .readCleanup (.ended .normal) else .readWait := by
  simp [endSend, resume, htask, deliver]

/-- Settles O52: the poll's `send` begins with its frame, and either opcode passes the echo check. -/
theorem readLoopDeliversEveryPolledByte : Obligations.ReadLoopDeliversEveryPolledByte := by
  refine ⟨fun s hb htask => hostTurn_begins_request hb (congrArg Task.request htask), ?_⟩
  intro s rop b rest htask ht hop hrop hc hq
  have haccept : rop ∈ accept s.h.reqOp := by
    rw [hop]
    exact (mem_accept _ _).mpr (hrop.imp_right fun h => ⟨rfl, h⟩)
  have hstep := hostTurn_ends_send ht hc hq
  rw [checkEcho, if_pos haccept] at hstep
  exact ⟨_, hstep, endSend_polled rop b (s := record (.response rop b) (setHostRx rest s)) htask⟩

/-- After a WRITE the byte is echoed if an echo sink is configured, and any non-zero result is end-of-tape
(R192, R196). -/
theorem endSend_written (rop b e : Byte) {s : State} (htask : s.h.task = .writeByte b) :
    (endSend (.returned rop e) s).h.source = s.h.source ∧
      (endSend (.returned rop e) s).h.echoSink =
        (if s.h.echo then s.h.echoSink ++ [b] else s.h.echoSink) ∧
      (endSend (.returned rop e) s).h.task =
        if e = 0x00 then .writeTop else .writeCleanup (.ended .endOfTape) := by
  simp [endSend, resume, htask, written]

/-- Settles O53: the WRITE's `send` begins with the byte read, and its response echoes the opcode. -/
theorem writeLoopEchoesAndStopsAtEndOfTape : Obligations.WriteLoopEchoesAndStopsAtEndOfTape := by
  refine ⟨fun s b hb htask => hostTurn_begins_request hb (congrArg Task.request htask), ?_⟩
  intro s b e rest htask ht hop hc hq
  have hstep := hostTurn_ends_send ht hc hq
  rw [hop, checkEcho_same] at hstep
  exact ⟨_, hstep, endSend_written 0x05 b e (s := record (.response 0x05 e) (setHostRx rest s)) htask⟩

/-- At the top of an iteration the read loop polls, unless it is cancelled (R194). -/
theorem controlStep_readTop {s : State} (htask : s.h.task = .readTop) :
    controlStep s =
      some (goTo (if s.h.cancel then .readCleanup (.ended .cancelled) else .readPoll) s) := by
  rw [controlStep, htask]
  cases s.h.cancel <;> rfl

/-- At the top of an iteration the write loop, if it is cancelled, goes to its cleanup (R194). -/
theorem controlStep_writeTop_cancelled {s : State} (htask : s.h.task = .writeTop) (hc : s.h.cancel = true) :
    controlStep s = some (goTo (.writeCleanup (.ended .cancelled)) s) := by
  simp [controlStep, htask, hc]

/-- Otherwise, with no input left, it ends as exhausted (R192). -/
theorem controlStep_writeTop_exhausted {s : State} (htask : s.h.task = .writeTop) (hc : s.h.cancel = false)
    (hsrc : s.h.source = []) : controlStep s = some (goTo (.writeCleanup (.ended .exhausted)) s) := by
  simp [controlStep, htask, hc, hsrc]

/-- And with input left, it takes the next byte (R192). -/
theorem controlStep_writeTop_takes {s : State} {b : Byte} {rest : List Byte} (htask : s.h.task = .writeTop)
    (hc : s.h.cancel = false) (hsrc : s.h.source = b :: rest) :
    controlStep s = some (setHost { s.h with source := rest, task := .writeByte b } s) := by
  simp [controlStep, htask, hc, hsrc]

/-- So its control step goes to its cleanup, or takes a byte. -/
theorem controlStep_writeTop {s t : State} (htask : s.h.task = .writeTop) (h : controlStep s = some t) :
    (∃ r, t = goTo (.writeCleanup (.ended r)) s) ∨
      ∃ b rest, t = setHost { s.h with source := rest, task := .writeByte b } s := by
  cases hc : s.h.cancel with
  | true =>
    rw [controlStep_writeTop_cancelled htask hc] at h
    exact .inl ⟨_, (Option.some.inj h).symm⟩
  | false =>
    cases hsrc : s.h.source with
    | nil =>
      rw [controlStep_writeTop_exhausted htask hc hsrc] at h
      exact .inl ⟨_, (Option.some.inj h).symm⟩
    | cons b rest =>
      rw [controlStep_writeTop_takes htask hc hsrc] at h
      exact .inr ⟨b, rest, (Option.some.inj h).symm⟩

/-- Settles O54: the top of an iteration is a control step, and the cleanup's `send` begins with its frame. -/
theorem cancelledLoopGoesToCleanup : Obligations.CancelledLoopGoesToCleanup := by
  refine ⟨fun s ht => ⟨fun htask => ?_, fun htask hc => ?_, fun htask hc hsrc => ?_,
    fun b rest htask hc hsrc => ?_⟩, fun s e hb => ⟨fun htask => ?_, fun htask => ?_⟩⟩
  · exact hostTurn_control ht (by rw [htask]; rfl) (controlStep_readTop htask)
  · exact hostTurn_control ht (by rw [htask]; rfl) (controlStep_writeTop_cancelled htask hc)
  · exact hostTurn_control ht (by rw [htask]; rfl) (controlStep_writeTop_exhausted htask hc hsrc)
  · exact hostTurn_control ht (by rw [htask]; rfl) (controlStep_writeTop_takes htask hc hsrc)
  · exact hostTurn_begins_request hb (congrArg Task.request htask)
  · exact hostTurn_begins_request hb (congrArg Task.request htask)

end Sys2Proof.Proofs
end

section
/-! What one step of the host does to the program that runs, and that a loop is left only through its cleanup
(R193, R222). -/

namespace Sys2Proof.Proofs

open Sys2Proof.Machine Sys2Proof.Safety Sys2Proof.Laws

/-! ### The host's step, as the program sees it -/

/-- `u` is `s` during a `send`, perhaps with the response recorded: the program stands where it stood. -/
structure AmidSend (s u : State) : Prop where
  sending : s.h.transfer ≠ .none
  task : u.h.task = s.h.task
  cleanups : cleanups u.h = cleanups s.h

/-- What the host's step from `s` to `t` is to the program. -/
inductive ProgramStep (s t : State) : Prop
  /-- Its request begins. -/
  | begins (op data : Byte) (free : s.h.transfer = .none) (request : s.h.task.request = some (op, data))
      (next : t = requesting op data s)
  /-- It takes a control step. -/
  | controls (free : s.h.transfer = .none) (request : s.h.task.request = none) (next : controlStep s = some t)
  /-- Its `send` goes on, without completing the request. -/
  | goesOn (task : t.h.task = s.h.task) (result : t.h.result = s.h.result)
      (trace : t.h.trace = s.h.trace) (done : requestsDone t.h.transfer = requestsDone s.h.transfer)
  /-- Its `send` completes the request. -/
  | transmits (b1 : Byte) (before : s.h.transfer = .sendData b1) (task : t.h.task = s.h.task)
      (result : t.h.result = s.h.result) (trace : t.h.trace = s.h.trace ++ [.request s.h.reqOp b1])
      (after : t.h.transfer = .recvOpcode)
  /-- Its `send` ends, and returns only once the request has gone out. -/
  | ends (o : SendOutcome) (u : State) (amid : AmidSend s u) (next : t = endSend o u)
      (whole : ∀ rop rdata, o = .returned rop rdata → requestsDone s.h.transfer = 1)

/-- A `send` that fails is such an end, whatever it has transmitted. -/
theorem programStep_of_raised {s : State} (e : HostError) (hs : s.h.transfer ≠ .none) :
    ProgramStep s (endSend (.raised e) s) :=
  .ends _ s ⟨hs, rfl, rfl⟩ rfl nofun

/-- Every step of the host is one of these. -/
theorem programStep_of_hostStep {s t : State} (h : hostStep s = some (.next t)) : ProgramStep s t := by
  rcases hostStep_cases h with ⟨op, data, ht, hr, ho⟩ | ⟨_, ht, hr, hc, ho⟩ | ⟨b0, b1, ht, ho⟩ |
    ⟨b1, ht, ho⟩ | ⟨_, ht, hc, ho⟩ | ⟨r0, _, ht, hc, ho⟩
  · rcases beginSend_cases op data s with ⟨_, e⟩ | ⟨_, e⟩ <;> rw [e] at ho <;> cases ho
    exact .begins op data ht hr rfl
  · cases ho
    exact .controls ht hr hc
  · rcases sendOpcodeStep_cases b0 b1 s with ⟨_, e⟩ | ⟨_, _, e⟩ | ⟨_, _, e⟩ <;> rw [e] at ho <;> cases ho
    · exact programStep_of_raised _ (by simp [ht])
    · exact .goesOn rfl rfl rfl (by rw [ht]; rfl)
  · rcases sendDataStep_cases b1 s with ⟨_, e⟩ | ⟨_, _, e⟩ | ⟨_, _, e⟩ <;> rw [e] at ho <;> cases ho
    · exact programStep_of_raised _ (by simp [ht])
    · exact .transmits b1 ht rfl rfl rfl rfl
  · cases ho
    rcases recvOpcodeStep_cases hc with ⟨_, rfl⟩ | ⟨_, _, _, _, rfl⟩
    · exact programStep_of_raised _ (by simp [ht])
    · exact .goesOn rfl rfl rfl (by rw [ht]; rfl)
  · cases ho
    rcases recvDataStep_cases hc with ⟨_, rfl⟩ | ⟨r1, rest, _, _, rfl⟩
    · exact programStep_of_raised _ (by simp [ht])
    · have amid : AmidSend s (record (.response r0 r1) (setHostRx rest s)) :=
        ⟨by simp [ht], rfl, by simp [cleanups, isCleanup]⟩
      exact .ends _ _ amid rfl fun _ _ _ => by rw [ht]; rfl

/-- A running program stays where it stands, takes a control step, or is resumed at the end of its `send`; the
start of another host process apart. -/
theorem step_moves_program {s t : State} (h : step s = .next t) (hrun : s.h.task ≠ .idle)
    (hstart : ¬ eventTurn .processStart s) :
    t.h.task = s.h.task ∨
    (s.h.task.request = none ∧ controlStep (settle s) = some t) ∨
    ∃ o u, AmidSend (settle s) u ∧ t = endSend o u := by
  by_cases hn : nextTurn s = .host
  · rcases step_cases h with ⟨ht, _⟩ | ⟨_, hh⟩ | ⟨e, ht, _⟩ | ⟨_, rfl⟩
    · cases hn.symm.trans ht
    · obtain ⟨_, _, _, _, rfl⟩ | ⟨_, hr, hc⟩ | ⟨htask, _, _, _⟩ | ⟨_, _, htask, _, _, _⟩ | ⟨o, u, hu, rfl, _⟩ :=
        programStep_of_hostStep hh
      · exact .inl rfl
      · exact .inr (.inl ⟨hr, hc⟩)
      · exact .inl htask
      · exact .inl htask
      · exact .inr (.inr ⟨o, u, hu, rfl⟩)
    · cases hn.symm.trans ht
    · exact .inl rfl
  · exact .inl (step_task h hrun hn hstart)

/-! ### Inside the `try` of a loop -/

theorem inReadTry_iff (task : Task) :
    inReadTry task ↔ task = .readStart ∨ task = .readTop ∨ task = .readPoll ∨ task = .readWait := by
  cases task <;> simp [inReadTry]

theorem inWriteTry_iff (task : Task) :
    inWriteTry task ↔
      task = .writeStart ∨ task = .writeSettle ∨ task = .writeTop ∨ ∃ b, task = .writeByte b := by
  cases task <;> simp [inWriteTry]

/-- The read loop's control steps stay inside its `try` or go to its cleanup. -/
theorem controlStep_inReadTry {s t : State} (hin : inReadTry s.h.task) (h : controlStep s = some t) :
    inReadTry t.h.task ∨ ∃ e, t.h.task = .readCleanup e := by
  obtain htask | htask | htask | htask := (inReadTry_iff _).mp hin
  · simp [controlStep, htask] at h
  · rw [controlStep_readTop htask] at h
    cases h
    cases hc : s.h.cancel <;> simp [inReadTry]
  · simp [controlStep, htask] at h
  · rw [controlStep, htask] at h
    cases h
    exact .inl trivial

/-- So does the end of one of its sends. -/
theorem endSend_inReadTry (o : SendOutcome) {s : State} (hin : inReadTry s.h.task) :
    inReadTry (endSend o s).h.task ∨ ∃ e, (endSend o s).h.task = .readCleanup e := by
  obtain htask | htask | htask | htask := (inReadTry_iff _).mp hin
  · cases o <;> simp [endSend, resume, htask, inReadTry]
  · exact .inl (by simp [endSend, resume, htask, inReadTry])
  · cases o with
    | returned rop b =>
      obtain ⟨-, hnext⟩ := endSend_polled rop b htask
      rw [hnext]
      split
      · exact .inr ⟨_, rfl⟩
      · exact .inl trivial
    | raised e => simp [endSend, resume, htask]
  · exact .inl (by simp [endSend, resume, htask, inReadTry])

/-- The write loop's control steps stay inside its `try` or go to its cleanup. -/
theorem controlStep_inWriteTry {s t : State} (hin : inWriteTry s.h.task) (h : controlStep s = some t) :
    inWriteTry t.h.task ∨ ∃ e, t.h.task = .writeCleanup e := by
  obtain htask | htask | htask | ⟨b, htask⟩ := (inWriteTry_iff _).mp hin
  · simp [controlStep, htask] at h
  · rw [controlStep, htask] at h
    cases h
    exact .inl trivial
  · obtain ⟨r, rfl⟩ | ⟨b, rest, rfl⟩ := controlStep_writeTop htask h
    · exact .inr ⟨_, rfl⟩
    · exact .inl trivial
  · simp [controlStep, htask] at h

/-- So does the end of one of its sends. -/
theorem endSend_inWriteTry (o : SendOutcome) {s : State} (hin : inWriteTry s.h.task) :
    inWriteTry (endSend o s).h.task ∨ ∃ e, (endSend o s).h.task = .writeCleanup e := by
  obtain htask | htask | htask | ⟨b, htask⟩ := (inWriteTry_iff _).mp hin
  · cases o <;> simp [endSend, resume, htask, inWriteTry]
  · exact .inl (by simp [endSend, resume, htask, inWriteTry])
  · exact .inl (by simp [endSend, resume, htask, inWriteTry])
  · cases o with
    | returned rop e =>
      obtain ⟨-, -, hnext⟩ := endSend_written rop b e htask
      rw [hnext]
      split
      · exact .inl trivial
      · exact .inr ⟨_, rfl⟩
    | raised e => simp [endSend, resume, htask]

/-! ### At a cleanup -/

/-- A cleanup stays, or ends the program at the end of the `send` of its own frame. -/
theorem step_cleanup {s t : State} {p : LoopExit} {op data : Byte} (hinv : HostInv s.h) (h : step s = .next t)
    (hstart : ¬ eventTurn .processStart s)
    (htask : s.h.task = .readCleanup p ∨ s.h.task = .writeCleanup p)
    (hrequest : s.h.task.request = some (op, data)) :
    t.h.task = s.h.task ∨
      (t.h.task = .idle ∧ s.h.reqOp = op ∧ s.h.outstanding = true ∧ t.h.outstanding = false) := by
  have hrun : s.h.task ≠ .idle := by obtain htask | htask := htask <;> simp [htask]
  obtain hstays | ⟨hnone, _⟩ | ⟨o, u, hu, rfl⟩ := step_moves_program h hrun hstart
  · exact .inl hstays
  · cases hrequest.symm.trans hnone
  · obtain ⟨_, hreq, -⟩ := hinv.sends hu.sending
    have hop : s.h.reqOp = op := congrArg Prod.fst (Option.some.inj (hreq.symm.trans hrequest))
    obtain ⟨hidle, -⟩ := endSend_cleanup (hu.task ▸ htask) o
    exact .inr ⟨hidle, hop, hinv.outstanding.mpr hu.sending, (endSend_h o u).1⟩

/-- Settles O55: a program inside a `try` moves by a control step or the end of a `send`, neither of which leads
past the cleanup, and a cleanup moves by the end of its own `send` only. -/
theorem loopIsLeftOnlyThroughCleanup : Obligations.LoopIsLeftOnlyThroughCleanup := by
  intro s t hinv h hstart
  refine ⟨fun hin => ?_, fun hin => ?_, fun e htask => ?_, fun e htask => ?_⟩
  · have hrun : s.h.task ≠ .idle := fun hidle => by rw [hidle] at hin; exact hin
    obtain hstays | ⟨_, hc⟩ | ⟨o, u, hu, rfl⟩ := step_moves_program h hrun hstart
    · exact .inl (hstays ▸ hin)
    · exact controlStep_inReadTry (s := settle s) hin hc
    · exact endSend_inReadTry o (hu.task ▸ hin)
  · have hrun : s.h.task ≠ .idle := fun hidle => by rw [hidle] at hin; exact hin
    obtain hstays | ⟨_, hc⟩ | ⟨o, u, hu, rfl⟩ := step_moves_program h hrun hstart
    · exact .inl (hstays ▸ hin)
    · exact controlStep_inWriteTry (s := settle s) hin hc
    · exact endSend_inWriteTry o (hu.task ▸ hin)
  · rw [← htask]
    exact step_cleanup hinv h hstart (.inl htask) (by rw [htask]; rfl)
  · rw [← htask]
    exact step_cleanup hinv h hstart (.inr htask) (by rw [htask]; rfl)

end Sys2Proof.Proofs
end

section
/-! The cleanup's frame (R193): every step keeps the count of cleanup frames in line with the control point, so
that a loop that has ended normally has sent exactly one. -/

namespace Sys2Proof.Proofs

open Sys2Proof.Machine Sys2Proof.Safety Sys2Proof.Laws

/-! ### The count at a control point -/

/-- The control points of the reference programs before a cleanup: no program that is over, no direct call. -/
def beforeCleanup : Task → Bool
  | .idle => false
  | .call _ _ => false
  | .readCleanup _ => false
  | .writeCleanup _ => false
  | _ => true

/-- Every other control point is no program's, a direct call's or a cleanup's. -/
theorem task_cases (task : Task) :
    task = .idle ∨ (∃ op data, task = .call op data) ∨ (∃ p, task = .readCleanup p ∨ task = .writeCleanup p) ∨
      beforeCleanup task = true := by
  cases task <;> simp [beforeCleanup]

/-- Before its cleanup a program has sent no cleanup frame. -/
theorem cleanupCount_beforeCleanup {h : HostState} (hb : beforeCleanup h.task = true) :
    cleanupCount h ↔ cleanups h = 0 := by
  cases htask : h.task <;> simp [beforeCleanup, htask] at hb <;> simp [cleanupCount, htask]

/-- In its cleanup it has sent one exactly if the request in progress has gone out. -/
theorem cleanupCount_cleanup {h : HostState} {p : LoopExit}
    (htask : h.task = .readCleanup p ∨ h.task = .writeCleanup p) :
    cleanupCount h ↔ cleanups h = requestsDone h.transfer := by
  obtain htask | htask := htask <;> simp [cleanupCount, htask]

/-- With no program running a loop that ended normally has sent one. -/
theorem cleanupCount_idle {h : HostState} (htask : h.task = .idle) :
    cleanupCount h ↔ ∀ r, h.result = some (.loopEnded r) → cleanups h = 1 := by
  simp [cleanupCount, htask]

/-- The count reads the control point, the result, the trace and how much of the request has gone out. -/
theorem cleanupCount_congr {h h' : HostState} (hc : cleanupCount h) (htask : h'.task = h.task)
    (hresult : h'.result = h.result) (htrace : h'.trace = h.trace)
    (hdone : requestsDone h'.transfer = requestsDone h.transfer) : cleanupCount h' := by
  unfold cleanupCount cleanups at hc ⊢
  rw [htask, hresult, htrace, hdone]
  exact hc

/-- No loop is said to have ended: a reference program runs, or the result is another. -/
def noLoopEnded (h : HostState) : Prop :=
  (h.task ≠ .idle ∧ ∀ op data, h.task ≠ .call op data) ∨ ∀ r, h.result ≠ some (.loopEnded r)

/-- Between two sends a program that has sent no cleanup frame meets the count wherever it stands, if no loop is
said to have ended. -/
theorem cleanupCount_of_none {h : HostState} (hc : cleanups h = 0) (ht : h.transfer = .none)
    (hend : noLoopEnded h) : cleanupCount h := by
  obtain hidle | ⟨op, data, hcall⟩ | ⟨p, hp⟩ | hb := task_cases h.task
  · obtain ⟨hrun, -⟩ | hresult := hend
    · exact absurd hidle hrun
    · exact (cleanupCount_idle hidle).mpr fun r hr => absurd hr (hresult r)
  · obtain ⟨-, hrun⟩ | hresult := hend
    · exact absurd hcall (hrun op data)
    · rw [cleanupCount, hcall]
      exact hresult
  · rw [cleanupCount_cleanup hp, hc, ht, requestsDone]
  · exact (cleanupCount_beforeCleanup hb).mpr hc

/-! ### A request goes out -/

/-- A request that has gone out counts if it is a cleanup frame. -/
theorem cleanups_transmit {h h' : HostState} {op data : Byte} (htrace : h'.trace = h.trace ++ [.request op data]) :
    cleanups h' = cleanups h + if isCleanup (.request op data) then 1 else 0 := by
  rw [cleanups, htrace, List.countP_append, List.countP_singleton, cleanups]

/-- Before its cleanup a program sends neither STOP_MOTOR nor STOP_WRITE. -/
theorem request_beforeCleanup {task : Task} {op data : Byte} (hb : beforeCleanup task = true)
    (hr : task.request = some (op, data)) : isCleanup (.request op data) = false := by
  cases task
  case idle | call _ _ | readCleanup _ | writeCleanup _ => cases hb
  case track args =>
    obtain ⟨k, -, hk⟩ := Option.map_eq_some_iff.mp hr
    cases hk
    rfl
  case seek args | status args =>
    rw [Task.request] at hr
    split at hr <;> cases hr
    rfl
  all_goals cases hr <;> rfl

/-- In its cleanup it sends one of the two. -/
theorem request_cleanup {task : Task} {p : LoopExit} {op data : Byte}
    (htask : task = .readCleanup p ∨ task = .writeCleanup p) (hr : task.request = some (op, data)) :
    isCleanup (.request op data) = true := by
  obtain rfl | rfl := htask <;> cases hr <;> rfl

/-- The completed request keeps the count: it is a cleanup frame exactly in a cleanup. -/
theorem cleanupCount_transmits {h h' : HostState} {b1 : Byte} (hinv : CleanupInv h)
    (hbefore : h.transfer = .sendData b1) (htask : h'.task = h.task) (hresult : h'.result = h.result)
    (htrace : h'.trace = h.trace ++ [.request h.reqOp b1]) (hafter : h'.transfer = .recvOpcode) :
    cleanupCount h' := by
  obtain ⟨data, hr, hm⟩ := hinv.host.sends (by simp [hbefore])
  rw [hbefore] at hm
  obtain rfl : b1 = data := hm
  have hcount := hinv.count
  have hsent := cleanups_transmit htrace
  obtain hidle | ⟨op, data, hcall⟩ | ⟨p, hp⟩ | hb := task_cases h.task
  · rw [hidle] at hr
    cases hr
  · rw [cleanupCount, hcall] at hcount
    rw [cleanupCount, htask, hcall, hresult]
    exact hcount
  · rw [cleanupCount_cleanup hp, hbefore] at hcount
    rw [cleanupCount_cleanup (htask ▸ hp), hsent, request_cleanup hp hr, hcount, hafter]
    rfl
  · rw [cleanupCount_beforeCleanup hb] at hcount
    rw [cleanupCount_beforeCleanup (htask ▸ hb), hsent, request_beforeCleanup hb hr, hcount]
    rfl

/-! ### A `send` ends -/

/-- No error is a loop's normal end. -/
theorem cleanupResult_raised (p : LoopExit) (e : HostError) (r : LoopResult) :
    cleanupResult p (.raised e) ≠ .loopEnded r := by
  cases p <;> simp [cleanupResult]

/-- A program resumed before its cleanup runs on, or ends with an error. -/
theorem endSend_beforeCleanup (o : SendOutcome) {s : State} (hb : beforeCleanup s.h.task = true) :
    noLoopEnded (endSend o s).h := by
  cases htask : s.h.task
  case idle | call _ _ | readCleanup _ | writeCleanup _ => cases htask ▸ hb
  case readCheck | writeCheck =>
    cases o with
    | returned _ st => cases hst : statusTapePresent st <;> simp [noLoopEnded, endSend, resume, htask, hst]
    | raised e => simp [noLoopEnded, endSend, resume, htask]
  case readPoll =>
    cases o with
    | returned rop b =>
      obtain ⟨-, hnext⟩ := endSend_polled rop b htask
      rw [noLoopEnded, hnext]
      split <;> exact .inl ⟨nofun, nofun⟩
    | raised e => simp [noLoopEnded, endSend, resume, htask]
  case writeByte b =>
    cases o with
    | returned rop e =>
      obtain ⟨-, -, hnext⟩ := endSend_written rop b e htask
      rw [noLoopEnded, hnext]
      split <;> exact .inl ⟨nofun, nofun⟩
    | raised e => simp [noLoopEnded, endSend, resume, htask]
  all_goals cases o <;> simp [noLoopEnded, endSend, resume, htask]

/-- The end of a `send` keeps the count: a loop ends normally only when the response to its cleanup's frame has
come in. -/
theorem cleanupCount_ends {s u : State} {o : SendOutcome} (hinv : CleanupInv s.h) (hu : AmidSend s u)
    (hwhole : ∀ rop rdata, o = .returned rop rdata → requestsDone s.h.transfer = 1) :
    cleanupCount (endSend o u).h := by
  obtain ⟨-, ht, -, -, htrace, -⟩ := endSend_h o u
  have hsent : cleanups (endSend o u).h = cleanups s.h := by rw [cleanups, htrace]; exact hu.cleanups
  have hcount := hinv.count
  obtain hidle | ⟨op, data, hcall⟩ | ⟨p, hp⟩ | hb := task_cases s.h.task
  · exact absurd (hostInv_idle hinv.host hidle).2 hu.sending
  · have hcall' : u.h.task = .call op data := hu.task.trans hcall
    cases o <;> simp [endSend, resume, hcall', cleanupCount]
  · obtain ⟨hidle, hresult⟩ := endSend_cleanup (hu.task.symm ▸ hp) o
    rw [cleanupCount_cleanup hp] at hcount
    rw [cleanupCount_idle hidle, hresult, hsent, hcount]
    intro r hr
    cases o with
    | returned rop rdata => exact hwhole rop rdata rfl
    | raised e => exact absurd (Option.some.inj hr) (cleanupResult_raised p e r)
  · rw [cleanupCount_beforeCleanup hb] at hcount
    exact cleanupCount_of_none (hsent.trans hcount) ht (endSend_beforeCleanup o (hu.task.symm ▸ hb))

/-! ### A program goes on between two sends, or starts -/

/-- Control steps are taken before the cleanup. -/
theorem controlStep_beforeCleanup {s t : State} (h : controlStep s = some t) : beforeCleanup s.h.task = true := by
  cases htask : s.h.task
  case idle | call _ _ | readCleanup _ | writeCleanup _ => simp [controlStep, htask] at h
  all_goals rfl

/-- After one the program runs on, or the tool is done. -/
theorem controlStep_noLoopEnded {s t : State} (h : controlStep s = some t) : noLoopEnded t.h := by
  cases htask : s.h.task
  case modes args =>
    rw [controlStep, htask] at h
    cases hread : args.read <;> cases hwrite : args.write <;> simp [hread, hwrite] at h <;> subst h <;>
      simp [noLoopEnded]
  case readTop =>
    rw [controlStep_readTop htask] at h
    cases h
    cases hc : s.h.cancel <;> simp [noLoopEnded]
  case writeTop =>
    obtain ⟨r, rfl⟩ | ⟨b, rest, rfl⟩ := controlStep_writeTop htask h <;> exact .inl ⟨nofun, nofun⟩
  all_goals
    rw [controlStep, htask] at h
    cases h <;> exact .inl ⟨nofun, nofun⟩

/-- A control step keeps the count: it sends nothing, and none ends a loop. -/
theorem cleanupCount_controls {s t : State} (hinv : CleanupInv s.h) (ht : s.h.transfer = .none)
    (h : controlStep s = some t) : cleanupCount t.h := by
  obtain ⟨-, htr, -, htrace, -⟩ := controlStep_host h
  have hcount := (cleanupCount_beforeCleanup (controlStep_beforeCleanup h)).mp hinv.count
  rw [ht, or_self] at htr
  exact cleanupCount_of_none (by rw [cleanups, htrace]; exact hcount) htr
    (controlStep_noLoopEnded h)

/-- The start of a program ends no loop. -/
theorem launch_noLoopEnded (p : Program) (s : State) : noLoopEnded (launch p s).h := by
  cases p with
  | commandLine args stdin =>
    rw [launch]
    split <;> simp [noLoopEnded, freshRun]
  | _ => simp [launch, noLoopEnded, freshRun]

/-! ### Every step -/

/-- The host's step keeps the count. -/
theorem cleanupCount_hostStep {s t : State} (hinv : CleanupInv s.h) (h : hostStep s = some (.next t)) :
    cleanupCount t.h := by
  obtain ⟨op, data, ht, hr, rfl⟩ | ⟨ht, hr, hc⟩ | ⟨htask, hresult, htrace, hdone⟩ |
    ⟨b1, hbefore, htask, hresult, htrace, hafter⟩ | ⟨o, u, hu, rfl, hwhole⟩ := programStep_of_hostStep h
  · exact cleanupCount_congr hinv.count rfl rfl rfl (by rw [ht]; rfl)
  · exact cleanupCount_controls hinv ht hc
  · exact cleanupCount_congr hinv.count htask hresult htrace hdone
  · exact cleanupCount_transmits hinv hbefore htask hresult htrace hafter
  · exact cleanupCount_ends hinv hu hwhole

/-- So does an event: it moves a program only while none runs. -/
theorem cleanupCount_envStep {e : Event} {s t : State} (hinv : CleanupInv s.h) (h : envStep e s = .next t) :
    cleanupCount t.h := by
  have hcount := hinv.count
  rcases envStep_host h with ht | ⟨_, ht⟩ | ⟨_, ht⟩ | ⟨hidle, ht | ⟨op, data, ht⟩ | ⟨p, ht⟩ | ⟨_, _, ht⟩⟩ <;>
    rw [ht]
  · exact hcount
  · exact cleanupCount_congr hcount rfl rfl rfl rfl
  · exact cleanupCount_of_none rfl rfl (.inr nofun)
  · refine (cleanupCount_idle ?_).mpr ((cleanupCount_idle hidle).mp hcount)
    exact hidle
  · exact nofun
  · obtain ⟨-, hfree⟩ := hostInv_idle hinv.host hidle
    obtain ⟨-, htr, -, htrace, -⟩ := launch_host p s
    exact cleanupCount_of_none (by rw [cleanups, htrace]; rfl) (htr.trans hfree) (launch_noLoopEnded p s)
  · exact cleanupCount_congr hcount rfl rfl rfl rfl

/-- Settles O56: the host's step and the events keep the count, and no other step reads or writes the host; the
count at an ended loop is 1. -/
theorem endedLoopHasSentOneCleanup : Obligations.EndedLoopHasSentOneCleanup := by
  refine ⟨fun s t hinv h => ⟨outstandingRequestMatchesProgram s t hinv.host h, ?_⟩,
    fun h r hinv hidle hr => (cleanupCount_idle hidle).mp hinv.count r hr⟩
  rcases step_cases h with ⟨_, hr⟩ | ⟨_, hh⟩ | ⟨e, _, he⟩ | ⟨_, rfl⟩
  · rw [responderStep_h hr]
    exact hinv.count
  · exact cleanupCount_hostStep (s := settle s) hinv hh
  · exact cleanupCount_envStep (s := settle s) hinv he
  · exact hinv.count

end Sys2Proof.Proofs
end

section
/-! Reset (R37, R260): the device's registers at their reset values, and the invariants that hold there. -/

namespace Sys2Proof.Proofs

open Sys2Proof.Machine Sys2Proof.Safety Sys2Proof.Laws

/-- Settles O7: each is a field of the reset state, or the output that follows the field. -/
theorem resetLeavesTransportOff : Obligations.ResetLeavesTransportOff :=
  ⟨rfl, rfl, rfl, rfl, rfl, rfl, rfl, rfl, rfl⟩

/-- Settles O8: in the event's turn the settled state is reset, which writes `T` and `D` only. -/
theorem deviceResetKeepsWireAndHost : Obligations.DeviceResetKeepsWireAndHost := by
  intro s he
  have hstep : step s = .next (resetDevice (settle s)) := step_eventTurn he
  exact ⟨_, hstep, rfl, rfl, rfl, rfl, rfl, rfl, rfl, rfl, rfl, rfl⟩

/-- Settles O49: fast-forward is off with the Responder idle, the host is between two sends, nothing is in
transit, and no program has ended. -/
theorem resetMeetsEveryInvariant : Obligations.ResetMeetsEveryInvariant := by
  have hhost : HostInv State.reset.h := hostInv_of_betweenSends rfl rfl
  exact ⟨deviceInv_of_ff_off rfl nofun, hhost, linkInv_reset [], hhost, cleanupCount_of_none rfl rfl (.inr nofun)⟩

end Sys2Proof.Proofs
end

section
/-! The commands that answer in one step, and SEEK (R110 to R119, R227): each as an equation for the state it
leaves, whose last part is the response appended. -/

namespace Sys2Proof.Proofs

open Sys2Proof.Machine Sys2Proof.Safety Sys2Proof.Laws

/-! ### The Boolean result byte and the status byte -/

/-- A true Boolean is answered as 0x01 (D8). -/
theorem bool8_eq (b : Bool) : bool8 b = if b then 0x01 else 0x00 := rfl

/-- And its negation as 0x00. -/
theorem bool8_not (b : Bool) : bool8 (!b) = if b then 0x00 else 0x01 := by
  cases b <;> rfl

/-- A `next` outcome that responds is the outcome with the response appended (R95). -/
theorem next_respond (rop rdata : Byte) (s : State) :
    (.next (respond rop rdata s) : Host.Outcome State Fault Refusal) = .next (answered rop rdata s) :=
  congrArg _ (respond_eq_answered rop rdata s)

/-- What each bit of the status byte is (R30, D10). -/
theorem statusByte_bits (t : TransportState) (sense : SenseState) :
    (statusByte t sense).extractLsb' 0 2 = t.track ∧ (statusByte t sense).getLsbD 2 = t.eotLatched ∧
      (statusByte t sense).getLsbD 3 = sense.tapePresent ∧ (statusByte t sense).extractLsb' 4 4 = 0 := by
  have hbits : ∀ (present latched : Bool) (track : BitVec 2),
      let st := Config.statusHigh ++ BitVec.ofBool present ++ BitVec.ofBool latched ++ track
      st.extractLsb' 0 2 = track ∧ st.getLsbD 2 = latched ∧ st.getLsbD 3 = present ∧ st.extractLsb' 4 4 = 0 := by
    decide
  exact hbits sense.tapePresent t.eotLatched t.track

/-! ### Status and track -/

/-- GET_STATUS answers the status before the clear, and clears the latch on non-zero data (R110, D9). -/
theorem exec_getStatus (data : Byte) (s : State) :
    exec (.getStatus data) s = .next (answered 0x00 (statusByte s.t s.sense)
      { s with t := { s.t with eotLatched := if data = 0x00 then s.t.eotLatched else false } }) := by
  have hclear : (if operandFlag data then clearLatch s else s) =
      { s with t := { s.t with eotLatched := if data = 0x00 then s.t.eotLatched else false } } := by
    by_cases hd : data = 0x00
    · rw [if_pos hd, if_neg (by simp [operandFlag, hd])]
    · have hflag : operandFlag data = true := decide_eq_true hd
      rw [if_neg hd, if_pos hflag]
      rfl
  rw [← hclear, ← next_respond]
  rfl

/-- Settles O9: the response is the status byte, of which each bit is known. -/
theorem getStatusReportsThenClears : Obligations.GetStatusReportsThenClears :=
  fun data s => ⟨_, exec_getStatus data s, statusByte_bits s.t s.sense⟩

/-- Settles O37: the event sets the latch that GET_STATUS then reports and clears; after it, it sets the latch
again. -/
theorem clearingStatusLosesNoEvent : Obligations.ClearingStatusLosesNoEvent := by
  intro data s hne
  obtain ⟨-, hbefore, -⟩ := statusByte_bits (eotEvent s).t (eotEvent s).sense
  obtain ⟨-, hafter, -⟩ := statusByte_bits s.t s.sense
  exact ⟨⟨_, _, exec_getStatus data (eotEvent s), rfl, hbefore, if_neg hne⟩,
    ⟨_, _, exec_getStatus data s, rfl, hafter, rfl⟩⟩

/-- SET_TRACK's operand is a track exactly for 0 to 3 (R75). -/
theorem operandTrack_eq (data : Byte) :
    operandTrack data = if data.toNat ≤ 3 then some (BitVec.ofNat 2 data.toNat) else none := by
  have htrack : data.extractLsb' 0 2 = BitVec.ofNat 2 data.toNat := by
    simp [BitVec.extractLsb']
  rw [operandTrack, htrack]
  rfl

/-- Its response byte is then the operand itself. -/
theorem trackByte_ofNat {data : Byte} (h : data.toNat ≤ 3) : trackByte (BitVec.ofNat 2 data.toNat) = data := by
  refine BitVec.eq_of_toNat_eq ?_
  simp [trackByte]
  omega

/-- The tape is stationary with motor and fast-forward both off (R14). -/
theorem stationary_iff (t : TransportState) : t.stationary = true ↔ t.motorOn = false ∧ t.ffOn = false := by
  simp [TransportState.stationary]

/-- Settles O10: an operand out of range or a moving tape leaves the track, which is answered either way. -/
theorem setTrackAcceptsOnlyInRangeAndStationary : Obligations.SetTrackAcceptsOnlyInRangeAndStationary := by
  intro data s
  have hheld : BitVec.ofNat 8 s.t.track.toNat = trackByte s.t.track := BitVec.ofNat_toNat _ _
  by_cases haccept : data.toNat ≤ 3 ∧ s.t.motorOn = false ∧ s.t.ffOn = false
  · obtain ⟨hrange, hstill⟩ := haccept
    rw [if_pos ⟨hrange, hstill⟩, ← next_respond, exec, execSetTrack, operandTrack_eq]
    simp only [if_pos hrange, (stationary_iff s.t).mpr hstill, if_true, trackByte_ofNat hrange]
    rfl
  · rw [if_neg haccept, hheld, ← next_respond, exec, execSetTrack, operandTrack_eq]
    by_cases hrange : data.toNat ≤ 3
    · have hmoving : ¬ s.t.stationary = true := fun h => haccept ⟨hrange, (stationary_iff s.t).mp h⟩
      simp only [if_pos hrange, if_neg hmoving]
      rfl
    · simp only [if_neg hrange]
      rfl

/-! ### Motion -/

/-- Settles O11: SEEK's dispatch step writes motor, fast-forward and mode, and sends nothing. -/
theorem seekStartsFastForward : Obligations.SeekStartsFastForward :=
  fun data s => exec_seek data s

/-- Settles O12: in the event's turn a SEEK is answered in the settled state, if one is positioning. -/
theorem seekDoneAnswersSeek : Obligations.SeekDoneAnswersSeek := by
  intro s he
  rw [step_eventTurn he]
  refine ⟨fun hm => ?_, fun hm => ?_⟩
  · exact (envStep_seekDone_seeking (s := settle s) hm).trans (next_respond _ _ _)
  · rw [envStep, settle_d, if_neg hm]

/-- Settles O13: the answer is whether the motor was off. -/
theorem startMotorTurnsMotorOn : Obligations.StartMotorTurnsMotorOn := by
  intro data s
  rw [← bool8_not, ← next_respond]
  rfl

/-- Settles O14: the answer is whether the motor was on. -/
theorem stopMotorTurnsMotorOff : Obligations.StopMotorTurnsMotorOff := by
  intro data s
  rw [← bool8_eq, ← next_respond]
  rfl

/-! ### Writing -/

/-- Settles O15: the byte is appended or discarded by the write mode, and the latch is answered. -/
theorem writeEmitsInWriteModeOnly : Obligations.WriteEmitsInWriteModeOnly := by
  intro data s
  rw [← bool8_eq, ← next_respond, exec, execWrite]
  cases hw : s.t.writeEnabled <;> rfl

/-- START_WRITE's condition (R116). -/
theorem canStartWrite_iff (t : TransportState) (sense : SenseState) :
    canStartWrite t sense = true ↔
      t.writeEnabled = false ∧ sense.tapePresent = true ∧ sense.recEnable = true := by
  simp [canStartWrite, recordEnabled, and_assoc]

/-- Settles O16: the condition is what is answered. -/
theorem startWriteNeedsRecordableTape : Obligations.StartWriteNeedsRecordableTape := by
  intro data s
  simp only [← canStartWrite_iff, ← next_respond, exec, execStartWrite]
  cases hcan : canStartWrite s.t s.sense <;> rfl

/-- Settles O17: whether write mode was on is what is answered. -/
theorem stopWriteLeavesWriteMode : Obligations.StopWriteLeavesWriteMode := by
  intro data s
  simp only [← next_respond, exec, execStopWrite]
  cases hw : s.t.writeEnabled <;> rfl

/-! ### Reserved opcodes -/

/-- Settles O22: every reserved instruction answers its opcode and nothing more, and the opcodes in question
decode to reserved instructions only. -/
theorem reservedOpcodesOnlyEcho : Obligations.ReservedOpcodesOnlyEcho := by
  obtain ⟨hfixed, hreserved⟩ := opcodeByteSelectsCommand
  refine ⟨fun d s => next_respond _ _ s, fun d s => next_respond _ _ s, fun op d s =>
    ⟨next_respond _ _ s, next_respond _ _ s, next_respond _ _ s, next_respond _ _ s, next_respond _ _ s⟩, ?_⟩
  intro op d i s hop hi
  obtain rfl | hop := hop
  · obtain ⟨-, -, -, -, -, -, -, -, -, hdataEot, -⟩ := hfixed d
    cases Except.ok.inj (hi.symm.trans hdataEot)
    exact next_respond _ _ s
  · obtain ⟨j, hj, hkind⟩ := hreserved op d hop
    cases Except.ok.inj (hi.symm.trans hj)
    obtain ⟨hopcode, -⟩ := decode_bytes hi
    obtain rfl | rfl | rfl | rfl | rfl | rfl := hkind
    · rw [← hopcode]
      exact next_respond _ _ s
    all_goals exact next_respond _ _ s

/-! ### Every command -/

/-- Settles O29: each command answers a next state, and none writes what is not the device's to change. -/
theorem everyCommandCompletes : Obligations.EveryCommandCompletes := by
  intro i s
  obtain ⟨t, h⟩ := exec_completes i s
  obtain ⟨hh, hsense, hsent, hdraws, hscript, hphase, hop, -, hline, hturns⟩ := exec_frame h
  exact ⟨t, h, hh, hsense, hsent, hline, hscript, hturns, hdraws, hphase, hop⟩

end Sys2Proof.Proofs
end

section
/-! The two bytes of a frame arriving (R93), and a frame placed where the next step takes it from. -/

namespace Sys2Proof.Proofs

open Sys2Proof.Machine Sys2Proof.Safety Sys2Proof.Laws

/-- Settles O26: the Responder's turn takes the byte of the settled channel and holds it. -/
theorem firstByteOfFrameIsHeld : Obligations.FirstByteOfFrameIsHeld := by
  intro s b rest ht hm hp hq
  have hhead : (settle s).hostToDevice.queue.head? = some b := by rw [hq, List.head?_cons]
  have hstep := responderTurn_holds_opcode (s := settle s) hm hp hhead
  rw [hq, List.tail_cons] at hstep
  rw [step_eq, ht]
  exact hstep

/-- A frame numbered with its opcode in the high byte is cut into its two bytes again. -/
theorem frameOfWord_of_bytes (op data : Byte) : frameOfWord 16 (op.toNat * 256 + data.toNat) = (op, data) := by
  have hop := op.isLt
  have hdata := data.isLt
  have hword : (op.toNat * 256 + data.toNat) % 2 ^ 16 = op.toNat * 256 + data.toNat := by omega
  simp only [frameOfWord, hword, Prod.mk.injEq]
  constructor <;> apply BitVec.eq_of_toNat_eq <;> simp <;> omega

/-- Settles O25: the placed frame's data byte arrives in the Responder's turn, at the device's rate. -/
theorem placedFrameRunsInTheNextStep : Obligations.PlacedFrameRunsInTheNextStep := by
  intro s op data i hi
  have hplaced : s.withFetchWord 16 (op.toNat * 256 + data.toNat) = placeFrame op data s := by
    rw [State.withFetchWord, frameOfWord_of_bytes]
  constructor
  · have harrives : frameArrives op data (placeFrame op data s) := ⟨rfl, rfl, rfl, rfl⟩
    rw [hplaced, stepRunsDecodedInstruction (placeFrame op data s) op data i rfl harrives hi, settle_same rfl]
    rfl
  · rw [decodeTableWord, frameOfWord_of_bytes, codecEncode, hi, if_pos (by decide)]

end Sys2Proof.Proofs
end

section
/-! What goes out to the host, what selects the track and what goes out on the tape, in every step. -/

namespace Sys2Proof.Proofs

open Sys2Proof.Machine Sys2Proof.Safety Sys2Proof.Laws

/-- A Responder's step that is no part of a dispatch leaves `T` and `write_data`, and sends at most the answer to
a poll; a dispatch runs the command of the frame whose data byte arrives. -/
theorem responderStep_effects {s t : State} (h : responderStep (settle s) = some (.next t)) :
    (∃ i data rest, frameArrives i.opcode data s ∧ decode [i.opcode, data] = .ok i ∧
      exec i (completeFrame (setLinkRx rest (settle s))) = .next t) ∨
    (t.t = s.t ∧ t.writeData = s.writeData ∧
      (t.deviceToHost = (settle s).deviceToHost ∨ (s.d.mode = .polling ∧ t = answerPollByLatch (settle s)))) := by
  rcases responderStep_cases h with ⟨_, _, _, _, _, ho⟩ | ⟨data, rest, i, hm, hp, hq, hd, ho⟩ | ⟨hpoll, _, ho⟩
  · cases ho
    exact .inr ⟨rfl, rfl, .inl rfl⟩
  · obtain ⟨hop, -⟩ := decode_bytes hd
    exact .inl ⟨i, data, rest, ⟨hm, hp, hop.symm, by rw [hq, List.head?_cons]⟩, hop.symm ▸ hd, ho.symm⟩
  · cases ho
    exact .inr ⟨rfl, rfl, .inr ⟨hpoll, rfl⟩⟩

/-- Settles O31: only a dispatched SET_TRACK that accepts its operand writes the track, a device reset apart. -/
theorem trackChangesOnlyWhileStationary : Obligations.TrackChangesOnlyWhileStationary := by
  intro s t h hne
  rcases step_cases h with ⟨ht, hr⟩ | ⟨_, hh⟩ | ⟨e, ht, he⟩ | ⟨_, rfl⟩
  · obtain ⟨i, data, rest, ha, hd, hexec⟩ | ⟨hkept, -⟩ := responderStep_effects hr
    · obtain ⟨htrack, -⟩ := exec_effects hexec
      obtain ⟨d, rfl, hmotor, hff, hrange, heq⟩ := htrack hne
      obtain ⟨-, rfl⟩ := decode_bytes hd
      exact .inr ⟨ht, hmotor, hff, d, ha, hrange, heq⟩
    · exact absurd (congrArg _ hkept) hne
  · obtain ⟨hkept, -⟩ := hostStep_frame hh
    exact absurd (congrArg _ hkept) hne
  · rcases envStep_cases he with ⟨_, rfl⟩ | ⟨rfl, _⟩ | ⟨_, _, rfl⟩ | ⟨_, _, _, rfl⟩ | ⟨hkept, _⟩
    · exact absurd rfl hne
    · exact .inl ht
    · exact absurd rfl hne
    · exact absurd rfl hne
    · exact absurd (congrArg _ hkept) hne
  · exact absurd rfl hne

/-- Settles O33: only a dispatched WRITE in write mode writes `write_data`, and appends its data byte. -/
theorem onlyWriteDrivesTheTape : Obligations.OnlyWriteDrivesTheTape := by
  intro s t h
  rcases step_cases h with ⟨ht, hr⟩ | ⟨_, hh⟩ | ⟨e, _, he⟩ | ⟨_, rfl⟩
  · obtain ⟨i, data, rest, ha, hd, hexec⟩ | ⟨-, hkept, -⟩ := responderStep_effects hr
    · obtain ⟨-, -, hwrite, -⟩ := exec_effects hexec
      refine or_iff_not_imp_left.mpr fun hne => ?_
      obtain ⟨hmode, d, rfl, happend⟩ := hwrite hne
      obtain ⟨-, rfl⟩ := decode_bytes hd
      exact ⟨ht, hmode, d, ha, happend⟩
    · exact .inl hkept
  · obtain ⟨-, -, -, hkept, -⟩ := hostStep_frame hh
    exact .inl hkept
  · rcases envStep_cases he with ⟨_, rfl⟩ | ⟨_, rfl⟩ | ⟨_, _, rfl⟩ | ⟨_, _, _, rfl⟩ | ⟨_, _, hkept, _⟩
    · exact .inl rfl
    · exact .inl rfl
    · exact .inl rfl
    · exact .inl rfl
    · exact .inl hkept
  · exact .inl rfl

/-- An opcode is the opcode of one instruction with a given data byte, its row's. -/
theorem opcode_ne {i : Instr} {op data : Byte} {r : Row} (hrow : rowOf op = some r)
    (hd : decode [i.opcode, data] = .ok i) (hne : i ≠ instrOfRow r op data) : i.opcode ≠ op := by
  rintro rfl
  exact hne (Except.ok.inj (hd.symm.trans (decode_of_row data hrow)))

/-- The Responder's step sends nothing, the response of a dispatched command other than SEEK and DATA, or the
answer to a poll (R95, R151). -/
theorem responderStep_transmits {s t : State} (h : responderStep (settle s) = some (.next t)) :
    t.deviceToHost.queue = (settle s).deviceToHost.queue ∨
    ∃ rop rdata : Byte, t.deviceToHost.queue = (settle s).deviceToHost.queue ++ [rop, rdata] ∧
      ((rop ≠ 0x02 ∧ rop ≠ 0x08 ∧ ∃ data : Byte, frameArrives rop data s) ∨
       (s.d.mode = .polling ∧ rop = if s.t.eotLatched then 0x09 else 0x08)) := by
  obtain ⟨i, data, rest, ha, hd, hexec⟩ | ⟨-, -, hkept | ⟨hpoll, rfl⟩⟩ := responderStep_effects h
  · obtain ⟨-, -, -, ⟨_, _, hkept, _⟩ | ⟨_, _, hkept, _⟩ | ⟨hseek, hdata, _, rdata, hq⟩⟩ := exec_effects hexec
    · exact .inl (congrArg _ hkept)
    · exact .inl (congrArg _ hkept)
    · have hop2 := opcode_ne (by decide : rowOf 0x02 = some .seek) hd (hseek data)
      have hop8 := opcode_ne (by decide : rowOf 0x08 = some .data) hd (hdata data)
      exact .inr ⟨i.opcode, rdata, hq, .inl ⟨hop2, hop8, data, ha⟩⟩
  · exact .inl (congrArg _ hkept)
  · exact .inr ⟨_, _, congrArg _ (answerPoll_deviceToHost _ _), .inr ⟨hpoll, rfl⟩⟩

/-- An event sends nothing, brings a link fault, takes the oldest byte, or ends a SEEK or a poll with its
answer. -/
theorem envStep_transmits {e : Event} {s t : State} (h : envStep e s = .next t) :
    t.deviceToHost.queue = s.deviceToHost.queue ∨
    (∃ b, s.deviceToHost.queue = b :: t.deviceToHost.queue) ∨ (∃ f, e = .linkFault f) ∨
    ∃ rop rdata : Byte, t.deviceToHost.queue = s.deviceToHost.queue ++ [rop, rdata] ∧
      ((e = .seekDone ∧ s.d.mode = .seeking ∧ rop = 0x02 ∧ rdata = 0x00) ∨
       (s.d.mode = .polling ∧ rop = if s.t.eotLatched then 0x09 else 0x08)) := by
  rcases envStep_cases h with ⟨_, rfl⟩ | ⟨_, rfl⟩ | ⟨he, hm, rfl⟩ | ⟨b, _, hm, rfl⟩ |
    ⟨_, _, _, hq | ⟨f, hf⟩ | ⟨b, hq⟩⟩
  · exact .inl rfl
  · exact .inl rfl
  · exact .inr (.inr (.inr ⟨0x02, 0x00, by simp, .inl ⟨he, hm, rfl, rfl⟩⟩))
  · exact .inr (.inr (.inr ⟨_, b, congrArg _ (answerPoll_deviceToHost b s), .inr ⟨hm, rfl⟩⟩))
  · exact .inl hq
  · exact .inr (.inr (.inl ⟨f, hf⟩))
  · exact .inr (.inl ⟨b, hq⟩)

/-- Settles O28: the Responder sends one response or nothing, the host takes at most the oldest byte, and an
event does one of its four things. -/
theorem deviceTransmitsOnlyResponses : Obligations.DeviceTransmitsOnlyResponses := by
  intro s t h
  rcases step_cases h with ⟨ht, hr⟩ | ⟨_, hh⟩ | ⟨e, ht, he⟩ | ⟨_, rfl⟩
  · obtain hkept | ⟨rop, rdata, hq, ⟨hseek, hdata, harrives⟩ | hpoll⟩ := responderStep_transmits hr
    · exact .inl hkept
    · exact .inr (.inr (.inr ⟨rop, rdata, hq, .inl ⟨ht, hseek, hdata, harrives⟩⟩))
    · exact .inr (.inr (.inr ⟨rop, rdata, hq, .inr (.inr hpoll)⟩))
  · obtain ⟨-, -, -, -, -, -, -, -, hq⟩ := hostStep_frame hh
    exact hq.imp_right .inl
  · obtain hkept | htaken | ⟨f, rfl⟩ | ⟨rop, rdata, hq, ⟨rfl, hm, hop, hdata⟩ | hpoll⟩ := envStep_transmits he
    · exact .inl hkept
    · exact .inr (.inl htaken)
    · exact .inr (.inr (.inl ⟨f, ht⟩))
    · exact .inr (.inr (.inr ⟨rop, rdata, hq, .inr (.inl ⟨ht, hm, hop, hdata⟩)⟩))
    · exact .inr (.inr (.inr ⟨rop, rdata, hq, .inr (.inr hpoll)⟩))
  · exact .inl rfl

end Sys2Proof.Proofs
end

section
/-! Commands against repetition and against the end-of-tape event (R56, R58, R60, R231). -/

namespace Sys2Proof.Proofs

open Sys2Proof.Machine Sys2Proof.Safety Sys2Proof.Laws

/-! ### Repetition -/

/-- The registers a command leaves, from those it finds and the sense levels (R110 to R119). -/
def registersAfter (sense : SenseState) (t : TransportState) : Instr → TransportState
  | .getStatus d => { t with eotLatched := if d = 0x00 then t.eotLatched else false }
  | .setTrack d =>
    if d.toNat ≤ 3 ∧ t.motorOn = false ∧ t.ffOn = false then { t with track := BitVec.ofNat 2 d.toNat } else t
  | .seek _ => { t with motorOn := false, ffOn := true }
  | .startMotor _ => { t with motorOn := true, ffOn := false }
  | .stopMotor _ => { t with motorOn := false }
  | .startWrite _ =>
    if canStartWrite t sense then { t with writeEnabled := true, motorOn := true, ffOn := false } else t
  | .stopWrite _ => if t.writeEnabled then { t with writeEnabled := false, motorOn := false } else t
  | .resetEot _ => { t with eotLatched := false }
  | _ => t

/-- These are the registers the model's command leaves. -/
theorem exec_registers {i : Instr} {s a : State} (h : exec i s = .next a) :
    a.t = registersAfter s.sense s.t i := by
  cases i
  case getStatus d =>
    rw [exec_getStatus] at h
    cases h
    rfl
  case setTrack d =>
    rw [setTrackAcceptsOnlyInRangeAndStationary] at h
    rw [registersAfter]
    split at h <;> cases h
    · rw [if_pos ‹_›]; rfl
    · rw [if_neg ‹_›]; rfl
  case write d =>
    rw [writeEmitsInWriteModeOnly] at h
    cases h
    rfl
  case startWrite d =>
    cases h
    rw [respond_t, registersAfter]
    split <;> rfl
  case stopWrite d =>
    cases h
    rw [respond_t, registersAfter]
    split <;> rfl
  all_goals
    cases h
    rfl

/-- A command finds nothing left to do in the registers it has left. -/
theorem registersAfter_again (sense : SenseState) (t : TransportState) (i : Instr) :
    registersAfter sense (registersAfter sense t i) i = registersAfter sense t i := by
  cases i
  case getStatus d => by_cases hd : d = 0x00 <;> simp [registersAfter, hd]
  case setTrack d =>
    by_cases haccept : d.toNat ≤ 3 ∧ t.motorOn = false ∧ t.ffOn = false <;> simp [registersAfter, haccept]
  case startWrite d => cases hcan : canStartWrite t sense <;> simp [registersAfter, hcan]
  case stopWrite d => cases hw : t.writeEnabled <;> simp [registersAfter, hw]
  all_goals rfl

/-- A command that is run again leaves the registers as they are (R56). -/
theorem exec_again_registers {i : Instr} {s a b : State} (ha : exec i s = .next a) (hb : exec i a = .next b) :
    b.t = a.t := by
  obtain ⟨-, hsense, -⟩ := exec_frame ha
  rw [exec_registers hb, exec_registers ha, hsense, registersAfter_again]

/-- A command that neither is SEEK nor DATA leaves the Responder's own state alone. -/
theorem exec_responderState {i : Instr} {s a : State} (h : exec i s = .next a) (hseek : ∀ d, i ≠ .seek d)
    (hdata : ∀ d, i ≠ .data d) : a.d = s.d := by
  obtain ⟨-, -, -, -, -, hphase, hop, -⟩ := exec_frame h
  obtain ⟨-, -, -, ⟨d, hi, -⟩ | ⟨d, hi, -⟩ | ⟨-, -, hmode, -⟩⟩ := exec_effects h
  · exact absurd hi (hseek d)
  · exact absurd hi (hdata d)
  · calc a.d = ⟨a.d.phase, a.d.op, a.d.mode⟩ := rfl
      _ = s.d := by rw [hphase, hop, hmode]

/-- No command but WRITE emits a byte. -/
theorem exec_writeData {i : Instr} {s a : State} (h : exec i s = .next a) (hwrite : ∀ d, i ≠ .write d) :
    a.writeData = s.writeData := by
  obtain ⟨-, -, emits, -⟩ := exec_effects h
  by_contra hne
  obtain ⟨-, d, hi, -⟩ := emits hne
  exact hwrite d hi

/-- A start or stop that is repeated answers that nothing changed (R56). -/
theorem exec_again_answers_unchanged {i : Instr} {s a b : State} (ha : exec i s = .next a)
    (hb : exec i a = .next b)
    (hi : match i with
      | .startMotor _ => True | .stopMotor _ => True | .startWrite _ => True | .stopWrite _ => True
      | _ => False) :
    b.deviceToHost.queue = a.deviceToHost.queue ++ [i.opcode, 0x00] := by
  cases i
  case startMotor d =>
    rw [startMotorTurnsMotorOn] at ha hb
    cases ha
    cases hb
    rfl
  case stopMotor d =>
    rw [stopMotorTurnsMotorOff] at ha hb
    cases ha
    cases hb
    rfl
  case startWrite d =>
    rw [startWriteNeedsRecordableTape] at ha hb
    split at ha <;> cases ha
    · rw [if_neg (by simp [answered])] at hb
      cases hb
      rfl
    · rw [if_neg (by assumption)] at hb
      cases hb
      rfl
  case stopWrite d =>
    rw [stopWriteLeavesWriteMode] at ha hb
    split at ha <;> cases ha
    · rw [if_neg (by simp [answered])] at hb
      cases hb
      rfl
    · rw [if_neg (by assumption)] at hb
      cases hb
      rfl
  all_goals exact hi.elim

/-- Settles O35: each part of the state is read back from what the second run can do to it. -/
theorem repeatedCommandsChangeNothingMore : Obligations.RepeatedCommandsChangeNothingMore := by
  intro i s a ha hi
  obtain ⟨b, hb⟩ := exec_completes i a
  refine ⟨b, hb, exec_again_registers ha hb, exec_responderState hb ?_ ?_, exec_writeData hb ?_, fun hmotion =>
    exec_again_answers_unchanged ha hb ?_⟩
  · rintro d rfl
    exact hi
  · rintro d rfl
    exact hi
  · rintro d rfl
    exact hi
  · cases i <;> exact hmotion

/-! ### The end-of-tape event -/

/-- Settles O36: no command but the three reads or writes the latch, so the event finds the same state after it. -/
theorem eotEventCommutesWithOtherCommands : Obligations.EotEventCommutesWithOtherCommands := by
  intro i s hi
  cases i
  case getStatus d | write d | resetEot d => exact hi.elim
  case setTrack d =>
    cases ho : operandTrack d with
    | none => simp only [exec, execSetTrack, ho]; rfl
    | some track =>
      have hmotion : (eotEvent s).t.stationary = s.t.stationary := rfl
      cases hst : s.t.stationary <;> simp only [exec, execSetTrack, ho, hmotion, hst] <;> rfl
  case startWrite d =>
    have hcond : canStartWrite (eotEvent s).t (eotEvent s).sense = canStartWrite s.t s.sense := rfl
    cases hcan : canStartWrite s.t s.sense <;> simp only [exec, execStartWrite, hcond, hcan] <;> rfl
  case stopWrite d =>
    have hmode : (eotEvent s).t.writeEnabled = s.t.writeEnabled := rfl
    cases hw : s.t.writeEnabled <;> simp only [exec, execStopWrite, hmode, hw] <;> rfl
  all_goals rfl

end Sys2Proof.Proofs
end

section
/-! The two processors share only the link (R36, R238): what each side's turn leaves alone, and that it reads
nothing of the other side. -/

namespace Sys2Proof.Proofs

open Sys2Proof.Machine Sys2Proof.Safety Sys2Proof.Laws

/-! ### What a turn leaves alone -/

/-- An agent's turn is the agent's step, or it waits. -/
theorem turn_cases {o : Option (Host.Outcome State Fault Refusal)} {s t : State}
    (h : o.getD (.next s) = .next t) : o = some (.next t) ∨ t = s := by
  cases o with
  | none => exact .inr (Host.Outcome.next.inj h).symm
  | some o => exact .inl (congrArg some h)

/-- The host's turn leaves the device alone, appends to `host_tx` and takes from the front of `host_rx`. -/
theorem hostTurn_frame {s t : State} (h : takeTurn .host s = .next t) :
    t.t = s.t ∧ t.sense = s.sense ∧ t.d = s.d ∧ t.writeData = s.writeData ∧ t.draws = s.draws ∧
      s.hostToDevice.queue <+: t.hostToDevice.queue ∧ t.deviceToHost.queue <:+ s.deviceToHost.queue := by
  obtain hh | rfl := turn_cases h
  · obtain ⟨ht, hsense, hd, hwd, hdraws, -, -, hsent, hq⟩ := hostStep_frame hh
    refine ⟨ht, hsense, hd, hwd, hdraws, hsent, ?_⟩
    obtain hq | ⟨b, hq⟩ := hq <;> rw [hq]
    exact List.suffix_cons b _
  · exact ⟨rfl, rfl, rfl, rfl, rfl, List.prefix_rfl, List.suffix_rfl⟩

/-- A command appends to `link_tx` at most. -/
theorem exec_appends {i : Instr} {s t : State} (h : exec i s = .next t) :
    s.deviceToHost.queue <+: t.deviceToHost.queue := by
  obtain ⟨-, -, -, ⟨_, _, hkept, _⟩ | ⟨_, _, hkept, _⟩ | ⟨_, _, _, rdata, hq⟩⟩ := exec_effects h
  · rw [hkept]
  · rw [hkept]
  · rw [hq]
    exact List.prefix_append _ _

/-- The Responder takes from the front of `link_rx` and appends to `link_tx`. -/
theorem responderStep_queues {s t : State} (h : responderStep s = some (.next t)) :
    t.hostToDevice.queue <:+ s.hostToDevice.queue ∧ s.deviceToHost.queue <+: t.deviceToHost.queue := by
  rcases responderStep_cases h with ⟨b, rest, _, _, hq, ho⟩ | ⟨b, rest, i, _, _, hq, _, ho⟩ | ⟨_, _, ho⟩
  · cases ho
    rw [hq]
    exact ⟨List.suffix_cons b rest, List.prefix_rfl⟩
  · obtain ⟨-, -, hsent, -⟩ := exec_frame ho.symm
    rw [hq, hsent]
    exact ⟨List.suffix_cons b rest, exec_appends (s := completeFrame (setLinkRx rest s)) ho.symm⟩
  · cases ho
    rw [answerPollByLatch_eq, answerPoll_deviceToHost]
    exact ⟨List.suffix_rfl, List.prefix_append _ _⟩

/-- The Responder's turn leaves the host, the inputs and the line alone, and opens and closes no channel. -/
theorem responderTurn_frame {s t : State} (h : takeTurn .responder s = .next t) :
    t.h = s.h ∧ t.sense = s.sense ∧ t.line = s.line ∧ t.hostToDevice.queue <:+ s.hostToDevice.queue ∧
      s.deviceToHost.queue <+: t.deviceToHost.queue ∧
      t.hostToDevice.closed = s.hostToDevice.closed ∧ t.deviceToHost.closed = s.deviceToHost.closed := by
  obtain hr | rfl := turn_cases h
  · obtain ⟨hline, hc1, hc2⟩ := responderStep_link hr
    obtain ⟨htaken, happended⟩ := responderStep_queues hr
    exact ⟨responderStep_h hr, responderStep_sense hr, hline, htaken, happended, hc1, hc2⟩
  · exact ⟨rfl, rfl, rfl, List.suffix_rfl, List.prefix_rfl, rfl, rfl⟩

/-! ### The Responder does not read the host -/

/-- No command reads the host. -/
theorem exec_setHost (i : Instr) (h : HostState) (s : State) :
    exec i (setHost h s) = mapNext (setHost h) (exec i s) := by
  cases i
  case getStatus d => cases hf : operandFlag d <;> simp only [exec, execGetStatus, hf] <;> rfl
  case setTrack d =>
    cases ho : operandTrack d with
    | none => simp only [exec, execSetTrack, ho]; rfl
    | some track =>
      cases hst : s.t.stationary <;> simp only [exec, execSetTrack, ho, setHost_t, hst] <;> rfl
  case write d => cases hw : s.t.writeEnabled <;> simp only [exec, execWrite, setHost_t, hw] <;> rfl
  case startWrite d =>
    cases hcan : canStartWrite s.t s.sense <;>
      simp only [exec, execStartWrite, setHost_t, setHost_sense, hcan] <;> rfl
  case stopWrite d => cases hw : s.t.writeEnabled <;> simp only [exec, execStopWrite, setHost_t, hw] <;> rfl
  all_goals rfl

/-- Nor does the Responder's turn, whatever it is about to do. -/
theorem responderTurn_setHost (h : HostState) (s : State) :
    takeTurn .responder (setHost h s) = mapNext (setHost h) (takeTurn .responder s) := by
  have waits (hnone : responderStep s = none) (hnone' : responderStep (setHost h s) = none) :
      takeTurn .responder (setHost h s) = mapNext (setHost h) (takeTurn .responder s) := by
    rw [takeTurn, takeTurn, hnone, hnone']
    rfl
  obtain hm | hm | hm := mode_cases s.d.mode
  · cases hq : s.hostToDevice.queue with
    | nil => exact waits (responderStep_none.mpr (.inl ⟨hm, hq⟩)) (responderStep_none.mpr (.inl ⟨hm, hq⟩))
    | cons b rest =>
      have hhead : s.hostToDevice.queue.head? = some b := by rw [hq, List.head?_cons]
      obtain hp | hp := phase_cases s.d.phase
      · rw [responderTurn_holds_opcode hm hp hhead, responderTurn_holds_opcode (s := setHost h s) hm hp hhead]
        rfl
      · obtain ⟨r, -, hd⟩ := decode_total s.d.op b
        rw [takeTurn, takeTurn, responderStep_completes_frame hm hp hhead hd,
          responderStep_completes_frame (s := setHost h s) hm hp hhead hd, Option.getD_some, Option.getD_some]
        exact exec_setHost _ h (completeFrame (setLinkRx s.hostToDevice.queue.tail s))
  · exact waits (responderStep_none.mpr (.inr (.inl hm))) (responderStep_none.mpr (.inr (.inl hm)))
  · cases hl : s.t.eotLatched with
    | true =>
      rw [takeTurn, takeTurn, responderStep_polling_latched hm hl,
        responderStep_polling_latched (s := setHost h s) hm hl]
      rfl
    | false =>
      exact waits (responderStep_none.mpr (.inr (.inr ⟨hm, hl⟩)))
        (responderStep_none.mpr (.inr (.inr ⟨hm, hl⟩)))

/-! ### The host does not read the device -/

/-- `s` with the device half of `u`: its registers, inputs, Responder, emitted bytes and draws. -/
def withDevice (u s : State) : State :=
  { s with t := u.t, sense := u.sense, d := u.d, writeData := u.writeData, draws := u.draws }

/-- A program resumed after its `send` does not read the device. -/
theorem resume_withDevice (u : State) (o : SendOutcome) (s : State) :
    resume o (withDevice u s) = withDevice u (resume o s) := by
  cases htask : s.h.task <;> cases o <;> simp only [resume, withDevice, htask]
  case readCheck.returned | writeCheck.returned => split <;> rfl
  all_goals rfl

/-- Nor does the end of the `send`. -/
theorem endSend_withDevice (u : State) (o : SendOutcome) (s : State) :
    endSend o (withDevice u s) = withDevice u (endSend o s) :=
  resume_withDevice u o (setHost { s.h with outstanding := false, transfer := .none } s)

/-- Nor does a control step. -/
theorem controlStep_withDevice (u s : State) :
    controlStep (withDevice u s) = (controlStep s).map (withDevice u) := by
  cases htask : s.h.task
  case modes args =>
    simp only [controlStep, withDevice, htask]
    cases args.read <;> cases args.write <;> rfl
  case readTop =>
    rw [controlStep_readTop htask, controlStep_readTop (s := withDevice u s) htask]
    rfl
  case writeTop =>
    cases hc : s.h.cancel with
    | true =>
      rw [controlStep_writeTop_cancelled htask hc, controlStep_writeTop_cancelled (s := withDevice u s) htask hc]
      rfl
    | false =>
      cases hsrc : s.h.source with
      | nil =>
        rw [controlStep_writeTop_exhausted htask hc hsrc,
          controlStep_writeTop_exhausted (s := withDevice u s) htask hc hsrc]
        rfl
      | cons b rest =>
        rw [controlStep_writeTop_takes htask hc hsrc,
          controlStep_writeTop_takes (s := withDevice u s) htask hc hsrc]
        rfl
  all_goals
    simp only [controlStep, withDevice, htask]
    rfl

/-- Nor does the beginning of a `send`, or what the program does between two of them. -/
theorem hostTurn_free_withDevice (u : State) {s : State} (ht : s.h.transfer = .none) :
    takeTurn .host (withDevice u s) = mapNext (withDevice u) (takeTurn .host s) := by
  have ht' : (withDevice u s).h.transfer = .none := ht
  cases hr : s.h.task.request with
  | some frame =>
    have hr' : (withDevice u s).h.task.request = some frame := hr
    obtain ⟨op, data⟩ := frame
    simp only [takeTurn, hostStep, ht, hr, ht', hr', Option.getD_some, beginSend]
    cases ho : s.h.outstanding <;> simp only [withDevice, ho] <;> rfl
  | none =>
    have hr' : (withDevice u s).h.task.request = none := hr
    simp only [takeTurn, hostStep, ht, hr, ht', hr', controlStep_withDevice]
    cases controlStep s <;> rfl

/-- Nor does the transmission of a byte. -/
theorem hostTurn_transmits_withDevice (u : State) {s : State}
    (ht : (∃ b0 b1, s.h.transfer = .sendOpcode b0 b1) ∨ ∃ b1, s.h.transfer = .sendData b1) :
    takeTurn .host (withDevice u s) = mapNext (withDevice u) (takeTurn .host s) := by
  cases hc : s.hostToDevice.closed with
  | true =>
    rw [hostTurn_closed (s := s) (.inl ⟨hc, ht⟩), hostTurn_closed (s := withDevice u s) (.inl ⟨hc, ht⟩),
      endSend_withDevice, mapNext]
  | false =>
    cases hr : s.h.responseOutstanding with
    | true =>
      rw [hostTurn_send_refused hc ht hr, hostTurn_send_refused (s := withDevice u s) hc ht hr, mapNext]
    | false =>
      obtain ⟨b0, b1, ht⟩ | ⟨b1, ht⟩ := ht
      · rw [hostTurn_sends_opcode ht hc hr, hostTurn_sends_opcode (s := withDevice u s) ht hc hr]
        rfl
      · rw [hostTurn_sends_data ht hc hr, hostTurn_sends_data (s := withDevice u s) ht hc hr]
        rfl

/-- Nor does the wait for one. -/
theorem hostTurn_receives_withDevice (u : State) {s : State}
    (ht : s.h.transfer = .recvOpcode ∨ ∃ r0, s.h.transfer = .recvData r0) :
    takeTurn .host (withDevice u s) = mapNext (withDevice u) (takeTurn .host s) := by
  cases hc : s.deviceToHost.closed with
  | true =>
    rw [hostTurn_closed (s := s) (.inr ⟨hc, ht⟩), hostTurn_closed (s := withDevice u s) (.inr ⟨hc, ht⟩),
      endSend_withDevice, mapNext]
  | false =>
    cases hq : s.deviceToHost.queue with
    | nil => rw [hostTurn_waits hc hq ht, hostTurn_waits (s := withDevice u s) hc hq ht, mapNext]
    | cons r rest =>
      obtain ht | ⟨r0, ht⟩ := ht
      · rw [hostTurn_receives_opcode ht hc hq, hostTurn_receives_opcode (s := withDevice u s) ht hc hq]
        rfl
      · rw [hostTurn_ends_send ht hc hq, hostTurn_ends_send (s := withDevice u s) ht hc hq, mapNext,
          ← endSend_withDevice]
        rfl

/-- So the host's turn does the same whatever the device's state is. -/
theorem hostTurn_withDevice (u s : State) :
    takeTurn .host (withDevice u s) = mapNext (withDevice u) (takeTurn .host s) := by
  cases htr : s.h.transfer with
  | none => exact hostTurn_free_withDevice u htr
  | sendOpcode b0 b1 => exact hostTurn_transmits_withDevice u (.inl ⟨b0, b1, htr⟩)
  | sendData b1 => exact hostTurn_transmits_withDevice u (.inr ⟨b1, htr⟩)
  | recvOpcode => exact hostTurn_receives_withDevice u (.inl htr)
  | recvData r0 => exact hostTurn_receives_withDevice u (.inr ⟨r0, htr⟩)

/-- Settles O38: each side's turn leaves the other side alone and commutes with any change of it. -/
theorem sidesShareOnlyTheLink : Obligations.SidesShareOnlyTheLink :=
  ⟨fun _ _ => hostTurn_frame, fun _ _ => responderTurn_frame, fun s h => responderTurn_setHost h s,
    fun s tr sense d wd n =>
      hostTurn_withDevice { s with t := tr, sense := sense, d := d, writeData := wd, draws := n } s⟩

end Sys2Proof.Proofs
end

section
/-! The exit codes (R6, R199): the OPEN ones are distinct from 0 and from each other by their construction. -/

namespace Sys2Proof.Proofs

open Sys2Proof.Machine Config

/-! ### Numbers other than a given one -/

theorem avoiding_ne (a n : Nat) : avoiding a n ≠ a := by
  unfold avoiding
  split <;> omega

theorem avoiding_pos {n : Nat} (a : Nat) (h : 0 < n) : 0 < avoiding a n := by
  unfold avoiding
  split <;> omega

/-- Avoiding a number keeps away from a smaller one that was avoided before. -/
theorem avoiding_keeps_ne {a b n : Nat} (hle : b ≤ a) (hne : n ≠ b) : avoiding a n ≠ b := by
  unfold avoiding
  split <;> omega

/-! ### The codes -/

theorem exitSyntax_ne_exitFail : exitSyntax ≠ exitFail := avoiding_ne _ _

theorem exitSyntax_ne_zero : exitSyntax ≠ 0 := (avoiding_pos _ (Nat.succ_pos _)).ne'

theorem exitNoTape_ne_zero : exitNoTape ≠ 0 := (avoiding_pos _ (avoiding_pos _ (Nat.succ_pos _))).ne'

/-- The code for no tape avoids the smaller of the other two, and then the larger. -/
theorem exitNoTape_ne : exitNoTape ≠ exitFail ∧ exitNoTape ≠ exitSyntax := by
  have hmax : exitNoTape ≠ max exitFail exitSyntax := avoiding_ne _ _
  have hmin : exitNoTape ≠ min exitFail exitSyntax := avoiding_keeps_ne min_le_max (avoiding_ne _ _)
  obtain h | h := le_total exitFail exitSyntax
  · rw [max_eq_right h] at hmax
    rw [min_eq_left h] at hmin
    exact ⟨hmin, hmax⟩
  · rw [max_eq_left h] at hmax
    rw [min_eq_right h] at hmin
    exact ⟨hmax, hmin⟩

/-- Settles O60: each result exits with its code, and the codes are distinct. -/
theorem exitCodesAreDistinct : Obligations.ExitCodesAreDistinct := by
  obtain ⟨hfail, hsyntax⟩ := exitNoTape_ne
  exact ⟨fun _ => rfl, rfl, fun _ _ => rfl, Nat.succ_ne_zero _, fun _ => rfl, exitSyntax_ne_zero,
    exitSyntax_ne_exitFail, hsyntax.symm, exitNoTape_ne_zero, hfail⟩

end Sys2Proof.Proofs
end
